-- ==== Sys2Proof/Word.lean ====
section
/-! DEFINITION. The word types of the machine: bytes, register values and addresses (spec/00_scope.md R6, R7). -/

namespace Sys2Proof

/-- A byte: 8 bits, bit 0 least significant (R6, R7). -/
abbrev Byte := BitVec 8

/-- A linear or effective address: 64 bits; in Mode32 the low 32 bits count (R29, R66, R67). -/
abbrev Addr := BitVec 64

/-- Number of an MMX register, 0 to 7 (R20). -/
abbrev MmReg := Fin 8

/-- Number of a vector register (XMM or YMM), 0 to 15 (R21, R22). -/
abbrev VReg := Fin 16

/-- Number of a general register, 0 to 15 (R23). -/
abbrev GReg := Fin 16

end Sys2Proof
end

