-- ==== Sys2Proof/Config.lean ====
section
/-! DEFINITION. What the spec makes a parameter of the machine: VLMAX, the record `Env`, and the free values
(spec/00_scope.md R5, spec/10_state.md R26, spec/92_eei_decisions.md). -/

namespace Sys2Proof

/-- `VLMAX`: the width in bits of a vector register, 256 (R5, D1; log 22). -/
def Config.vlmax : Nat := 256

/-- Operating mode (R5, R26): the two modes the page's mode column names (D2). -/
inductive Mode where
  /-- 64-bit mode, 64-bit addressing. -/
  | mode64
  /-- Protected or compatibility mode with a 32-bit code segment, 32-bit addressing. -/
  | mode32
deriving DecidableEq, Repr

/-- The record `Env` of R26, and the parameter of R46. The exception rules and the decoder read it; no rule writes it. -/
structure Env where
  mode : Mode
  /-- CPUID feature flag MMX. -/
  cpuidMMX : Bool
  /-- CPUID feature flag SSE2. -/
  cpuidSSE2 : Bool
  /-- CPUID feature flag AVX. -/
  cpuidAVX : Bool
  /-- CPUID feature flag AVX2. -/
  cpuidAVX2 : Bool
  /-- CR0.EM, x87 emulation. -/
  cr0EM : Bool
  /-- CR0.TS, task switched. -/
  cr0TS : Bool
  /-- CR4.OSFXSR. -/
  cr4OSFXSR : Bool
  /-- CR4.OSXSAVE. -/
  cr4OSXSAVE : Bool
  /-- XCR0.SSE. -/
  xcr0SSE : Bool
  /-- XCR0.AVX. -/
  xcr0AVX : Bool
  /-- An unmasked x87 exception is pending. -/
  x87ExceptionPending : Bool
  /-- CR0.AM = 1 and EFLAGS.AC = 1 and CPL = 3. -/
  acEnabled : Bool
  /-- `vex_m128_alignment_enforced` (R46, D7): rows 8 to 11 fault on a misaligned `m128` as rows 4 to 7 do. -/
  vexM128AlignmentEnforced : Bool
deriving DecidableEq, Repr

/-- DESIGN CHOICE (log 4): `Env` at reset. The spec gives no reset value (R30, R180); this is the setting
spec/95_test_vectors.md takes unless a vector says otherwise, and the alignment parameter's default (D7). -/
def Env.reset : Env where
  mode := .mode64
  cpuidMMX := true
  cpuidSSE2 := true
  cpuidAVX := true
  cpuidAVX2 := true
  cr0EM := false
  cr0TS := false
  cr4OSFXSR := true
  cr4OSXSAVE := true
  xcr0SSE := true
  xcr0AVX := true
  x87ExceptionPending := false
  acEnabled := false
  vexM128AlignmentEnforced := false

/-- FREE VALUE (log 8): the fault code the flat instance's `Access.page` reports, `#PF(fault-code)` (R47, R150). The spec
says that a code is reported and not which; it may depend on `Env`, the operand's linear address and its length. -/
opaque Config.pageFaultCode : Env → Addr → Nat → Nat

/-- FREE VALUE (log 19): what a vector register that the mode does not have would read as (R22). No well-formed instruction of a
state that meets the invariant reads one. -/
opaque Config.absentRegister : VReg → BitVec 256

end Sys2Proof
end

