-- ==== Sys2Proof/Syntax.lean ====
section
/-! DEFINITION. The fifteen instruction forms (spec/00_scope.md R3, spec/30_encoding.md R72), one constructor for each row of
spec/opcode_table.json, with the operands of R70 and R71 and with the choices an encoding leaves free. -/

namespace Sys2Proof

/-- Displacement of a memory operand (R66): none, `disp8` or `disp32`. -/
inductive Disp where
  | none
  | d8 (v : BitVec 8)
  | d32 (v : BitVec 32)
deriving DecidableEq, Repr

/-- The shapes of a memory operand (R66, R67). -/
inductive MemOp where
  /-- No SIB byte: a base register and a displacement. -/
  | base (b : GReg) (d : Disp)
  /-- `mod` = 00B, `rm` = 101B: RIP-relative in Mode64 (R66), absolute in Mode32 (R67). -/
  | disp32 (v : BitVec 32)
  /-- A SIB byte with a base register. Index number 4 means no index. -/
  | sib (scale : BitVec 2) (index : GReg) (b : GReg) (d : Disp)
  /-- A SIB byte with `mod` = 00B and `base` = 101B: no base register, a `disp32`. -/
  | sibDisp32 (scale : BitVec 2) (index : GReg) (v : BitVec 32)
deriving DecidableEq, Repr

/-- A register-or-memory operand, named by ModRM.mod and ModRM.rm (R64). `ρ` is the type of its register number. -/
inductive RM (ρ : Type) where
  | reg (r : ρ)
  | mem (m : MemOp)
deriving DecidableEq, Repr

/-- Prefix bits that name no register of the form's `reg` or `vvvv` operand: W, X and B of a REX prefix (R63) or of a
3-byte VEX prefix (R68), not inverted. R is the top bit of the `reg` operand's number. -/
structure ExtBits where
  w : Bool
  x : Bool
  b : Bool
deriving DecidableEq, Repr

/-- REX prefix of a legacy form: `none` when there is none (R63). -/
abbrev RexPfx := Option ExtBits

/-- VEX prefix: `none` for the 2-byte form, which implies W = X = B = 0, else the 3-byte form's bits (R68). -/
abbrev VexPfx := Option ExtBits

/-- The instructions. `Mm`: MMX forms (Op/En RM, rows 1 to 3). `Xmm` without `v`: 128-bit legacy SSE forms (RM, rows 4 to 7).
`v…Xmm`: VEX.128 forms (RVM, rows 8 to 11). `v…Ymm`: VEX.256 forms (RVM, rows 12 to 15). `d` is the destination (ModRM.reg),
`s1` the first source of the VEX forms (VEX.vvvv), `src` the last source (ModRM.r/m). -/
inductive Instr where
  /-- Row 1, R111. -/
  | punpcklbwMm (p : RexPfx) (d : MmReg) (src : RM MmReg)
  /-- Row 2, R112. -/
  | punpcklwdMm (p : RexPfx) (d : MmReg) (src : RM MmReg)
  /-- Row 3, R113. -/
  | punpckldqMm (p : RexPfx) (d : MmReg) (src : RM MmReg)
  /-- Row 4, R121. -/
  | punpcklbwXmm (p : RexPfx) (d : VReg) (src : RM VReg)
  /-- Row 5, R122. -/
  | punpcklwdXmm (p : RexPfx) (d : VReg) (src : RM VReg)
  /-- Row 6, R123. -/
  | punpckldqXmm (p : RexPfx) (d : VReg) (src : RM VReg)
  /-- Row 7, R124. -/
  | punpcklqdqXmm (p : RexPfx) (d : VReg) (src : RM VReg)
  /-- Row 8, R131. -/
  | vpunpcklbwXmm (p : VexPfx) (d s1 : VReg) (src : RM VReg)
  /-- Row 9, R132. -/
  | vpunpcklwdXmm (p : VexPfx) (d s1 : VReg) (src : RM VReg)
  /-- Row 10, R133. -/
  | vpunpckldqXmm (p : VexPfx) (d s1 : VReg) (src : RM VReg)
  /-- Row 11, R134. -/
  | vpunpcklqdqXmm (p : VexPfx) (d s1 : VReg) (src : RM VReg)
  /-- Row 12, R141. -/
  | vpunpcklbwYmm (p : VexPfx) (d s1 : VReg) (src : RM VReg)
  /-- Row 13, R142. -/
  | vpunpcklwdYmm (p : VexPfx) (d s1 : VReg) (src : RM VReg)
  /-- Row 14, R143. -/
  | vpunpckldqYmm (p : VexPfx) (d s1 : VReg) (src : RM VReg)
  /-- Row 15, R144. -/
  | vpunpcklqdqYmm (p : VexPfx) (d s1 : VReg) (src : RM VReg)
deriving DecidableEq, Repr

/-- The refusals of R79. Each says that the spec gives the bytes no meaning, not that the hardware faults (R11); safe. -/
inductive DecodeRefusal where
  /-- The opcode bytes are none of the fifteen forms' (R79). -/
  | notThisGroup
  /-- A prefix the spec does not describe before one of the forms, a repeated 66H, or a REX that is not the last prefix (R79). -/
  | prefixNotAdmitted
  /-- An MMX form with REX.R = 1, or with REX.B = 1 and a register source (R65, R79). -/
  | mmxRegisterExtension
  /-- A Mode32 3-byte VEX prefix with `B'` = 0 or `vvvv'[3]` = 0 (R65, R79). -/
  | vex32ReservedBits
  /-- The program ends inside the instruction (R79). -/
  | truncated
deriving DecidableEq, Repr

end Sys2Proof
end

