-- ==== Sys2Proof/WellFormed.lean ====
section
/-! DEFINITION. Which instructions an encoding of the given mode can name (spec/30_encoding.md R63 to R68). Exactly these come out
of the decoder, and the encoder encodes them. -/

namespace Sys2Proof

/-- REX.X or VEX.X of a prefix; 0 when the prefix does not carry it (R65, R66). -/
def ExtBits.xOf (p : Option ExtBits) : Bool :=
  match p with
  | none => false
  | some e => e.x

/-- REX.B or VEX.B of a prefix; 0 when the prefix does not carry it (R65, R66). -/
def ExtBits.bOf (p : Option ExtBits) : Bool :=
  match p with
  | none => false
  | some e => e.b

/-- A memory operand fits the prefix's X and B (R66): X and B are the top bits of the index and base numbers where there is an
index or a base; base 4 or 12 needs a SIB byte; base 5 or 13 needs a displacement. A bit that names nothing is free (D21). -/
def MemOp.wf (x b : Bool) : MemOp → Bool
  | .base r d => b == decide (8 ≤ r.val) && r.val % 8 != 4 && (d != .none || r.val % 8 != 5)
  | .disp32 _ => true
  | .sib _ i r d => x == decide (8 ≤ i.val) && b == decide (8 ≤ r.val) && (d != .none || r.val % 8 != 5)
  | .sibDisp32 _ i _ => x == decide (8 ≤ i.val)

/-- A vector register-or-memory operand fits the prefix's X and B (R65). -/
def RM.wfV (x b : Bool) : RM VReg → Bool
  | .reg r => b == decide (8 ≤ r.val)
  | .mem m => m.wf x b

/-- An MMX register-or-memory operand fits the prefix's X and B: no bit extends an MMX register (R65). -/
def RM.wfMm (x b : Bool) : RM MmReg → Bool
  | .reg _ => !b
  | .mem m => m.wf x b

/-- A REX prefix exists in Mode64 only (R63). -/
def RexPfx.wf (m : Mode) (p : RexPfx) : Bool := m == .mode64 || p.isNone

/-- An MMX form (R61, R63, R65). -/
def wfMmForm (m : Mode) (p : RexPfx) (src : RM MmReg) : Bool :=
  RexPfx.wf m p && src.wfMm (ExtBits.xOf p) (ExtBits.bOf p)

/-- A 128-bit legacy form (R61, R63, R65): a destination above 7 needs a REX prefix, for REX.R. -/
def wfXmmForm (m : Mode) (p : RexPfx) (d : VReg) (src : RM VReg) : Bool :=
  RexPfx.wf m p && (decide (d.val < 8) || p.isSome) && src.wfV (ExtBits.xOf p) (ExtBits.bOf p)

/-- A VEX form (R65, R68): in Mode32 no register above 7, and X = B = 0. -/
def wfVexForm (m : Mode) (p : VexPfx) (d s1 : VReg) (src : RM VReg) : Bool :=
  src.wfV (ExtBits.xOf p) (ExtBits.bOf p) &&
    (m == .mode64 || (decide (d.val < 8) && decide (s1.val < 8) && !ExtBits.xOf p && !ExtBits.bOf p))

/-- The instruction can be encoded in mode `m`. -/
def Instr.wf (m : Mode) : Instr → Bool
  | .punpcklbwMm p _ src => wfMmForm m p src
  | .punpcklwdMm p _ src => wfMmForm m p src
  | .punpckldqMm p _ src => wfMmForm m p src
  | .punpcklbwXmm p d src => wfXmmForm m p d src
  | .punpcklwdXmm p d src => wfXmmForm m p d src
  | .punpckldqXmm p d src => wfXmmForm m p d src
  | .punpcklqdqXmm p d src => wfXmmForm m p d src
  | .vpunpcklbwXmm p d s1 src => wfVexForm m p d s1 src
  | .vpunpcklwdXmm p d s1 src => wfVexForm m p d s1 src
  | .vpunpckldqXmm p d s1 src => wfVexForm m p d s1 src
  | .vpunpcklqdqXmm p d s1 src => wfVexForm m p d s1 src
  | .vpunpcklbwYmm p d s1 src => wfVexForm m p d s1 src
  | .vpunpcklwdYmm p d s1 src => wfVexForm m p d s1 src
  | .vpunpckldqYmm p d s1 src => wfVexForm m p d s1 src
  | .vpunpcklqdqYmm p d s1 src => wfVexForm m p d s1 src

end Sys2Proof
end

