-- ==== Sys2Proof/Decode.lean ====
section
/-! DEFINITION. The decoder of spec/30_encoding.md R80, total on any bytes, and the encoder and the instruction lengths (R60 to R73)
written from the same tables. -/

namespace Sys2Proof

/-! ### Fields -/

/-- A register number from its extension bit and its three ModRM or SIB bits (R65): `hi * 8 + lo`. -/
def regNum (hi : Bool) (lo : BitVec 3) : Fin 16 := ⟨hi.toNat * 8 + lo.toNat, by cases hi <;> simp <;> omega⟩

/-- The extension bit of a register number. -/
def regHi (r : Fin 16) : Bool := decide (8 ≤ r.val)

/-- The three ModRM or SIB bits of a register number. -/
def regLo (r : Fin 16) : BitVec 3 := BitVec.ofNat 3 r.val

/-- An MMX register number from its three bits (R65). -/
def mmNum (lo : BitVec 3) : MmReg := ⟨lo.toNat, lo.isLt⟩

/-- The three bits of an MMX register number. -/
def mmLo (r : MmReg) : BitVec 3 := BitVec.ofNat 3 r.val

/-- The register number in the inverted field `vvvv'`: `15 - vvvv'` (R65, R68). In Mode32 bit 3 of the field is 1 (R80), and
then this is `7 - vvvv'[2:0]`. -/
def vvvvNum (v : BitVec 4) : VReg := ⟨15 - v.toNat, by omega⟩

/-- The inverted field `vvvv'` of a register number (R68). -/
def vvvvBits (r : VReg) : BitVec 4 := BitVec.ofNat 4 (15 - r.val)

/-- The same operand with its register number changed by `f`. -/
def RM.map {ρ σ : Type} (f : ρ → σ) : RM ρ → RM σ
  | .reg r => .reg (f r)
  | .mem m => .mem m

/-- The four opcodes 60H, 61H, 62H, 6CH (R60). -/
inductive Opc where
  | bw
  | wd
  | dq
  | qdq
deriving DecidableEq, Repr

/-- The operand is a register (`mod` = 11B, R64). -/
def RM.isReg {ρ : Type} : RM ρ → Bool
  | .reg _ => true
  | .mem _ => false

/-- The opcode a byte is, if it is one of the group's (R60, R61). -/
def opcOf (b : Byte) : Option Opc :=
  if b = 0x60#8 then some .bw
  else if b = 0x61#8 then some .wd
  else if b = 0x62#8 then some .dq
  else if b = 0x6C#8 then some .qdq
  else none

/-- The byte of an opcode (R60). -/
def opcByte : Opc → Byte
  | .bw => 0x60#8
  | .wd => 0x61#8
  | .dq => 0x62#8
  | .qdq => 0x6C#8

/-! ### ModRM, SIB and displacement -/

/-- A `disp32`: four bytes, little-endian (R41, R66). -/
def takeDisp32 : List Byte → Option (BitVec 32)
  | b0 :: b1 :: b2 :: b3 :: _ => some ((b3 ++ b2 ++ b1 ++ b0).cast rfl)
  | _ => none

/-- The displacement that `mod` = 00B, 01B or 10B adds to a base (R66). -/
def takeDisp (mod : BitVec 2) (bytes : List Byte) : Option Disp :=
  if mod = 0#2 then some .none
  else if mod = 1#2 then bytes.head?.map .d8
  else (takeDisp32 bytes).map .d32

/-- The memory operand of a ModRM byte with `mod` ≠ 11B (R64, R66): SIB byte and displacement follow. `none`: the bytes end. -/
def takeMemOp (x b : Bool) (mod : BitVec 2) (rm : BitVec 3) (bytes : List Byte) : Option MemOp :=
  if rm = 4#3 then
    match bytes with
    | [] => none
    | sib :: rest =>
      let scale := sib.extractLsb' 6 2
      let index := regNum x (sib.extractLsb' 3 3)
      let base := sib.extractLsb' 0 3
      if mod = 0#2 ∧ base = 5#3 then (takeDisp32 rest).map (.sibDisp32 scale index)
      else (takeDisp mod rest).map (.sib scale index (regNum b base))
  else if mod = 0#2 ∧ rm = 5#3 then (takeDisp32 bytes).map .disp32
  else (takeDisp mod bytes).map (.base (regNum b rm))

/-- The ModRM byte and what follows it (R64): the `reg` field and the register-or-memory operand, its register number still the
three bits of `rm`. `none`: the bytes end. -/
def takeModRM (x b : Bool) (bytes : List Byte) : Option (BitVec 3 × RM (BitVec 3)) :=
  match bytes with
  | [] => none
  | modrm :: rest =>
    let mod := modrm.extractLsb' 6 2
    let reg := modrm.extractLsb' 3 3
    let rm := modrm.extractLsb' 0 3
    if mod = 3#2 then some (reg, .reg rm)
    else (takeMemOp x b mod rm rest).map fun m => (reg, .mem m)

/-! ### The decoder -/

/-- What the bytes at pc are: an instruction, a decode-time `#UD` (R74(c)), or a refusal by name (R79). -/
inductive Decoded where
  | instr (i : Instr)
  | ud
  | refused (r : DecodeRefusal)
deriving DecidableEq, Repr

/-- The legacy prefix bytes of R80. -/
def isLegacyPrefix (b : Byte) : Bool :=
  [0x66#8, 0xF2#8, 0xF3#8, 0xF0#8, 0x26#8, 0x2E#8, 0x36#8, 0x3E#8, 0x64#8, 0x65#8, 0x67#8].contains b

/-- The segment-override prefixes and the address-size prefix 67H (R79). -/
def isSegOrAddrPrefix (b : Byte) : Bool :=
  [0x26#8, 0x2E#8, 0x36#8, 0x3E#8, 0x64#8, 0x65#8, 0x67#8].contains b

/-- F2H or F3H. -/
def isRepPrefix (b : Byte) : Bool := [0xF2#8, 0xF3#8].contains b

/-- A REX byte, 40H to 4FH (R63). -/
def isRex (b : Byte) : Bool := b.extractLsb' 4 4 = 4#4

/-- The MMX form of an opcode; there is no MMX PUNPCKLQDQ (R61). -/
def mmInstr (o : Opc) (p : RexPfx) (d : MmReg) (src : RM MmReg) : Option Instr :=
  match o with
  | .bw => some (.punpcklbwMm p d src)
  | .wd => some (.punpcklwdMm p d src)
  | .dq => some (.punpckldqMm p d src)
  | .qdq => none

/-- The 128-bit legacy form of an opcode (R61). -/
def xmmInstr (o : Opc) (p : RexPfx) (d : VReg) (src : RM VReg) : Instr :=
  match o with
  | .bw => .punpcklbwXmm p d src
  | .wd => .punpcklwdXmm p d src
  | .dq => .punpckldqXmm p d src
  | .qdq => .punpcklqdqXmm p d src

/-- The VEX form of an opcode, by VEX.L (R69, R72). -/
def vexInstr (o : Opc) (l : Bool) (p : VexPfx) (d s1 : VReg) (src : RM VReg) : Instr :=
  match o, l with
  | .bw, false => .vpunpcklbwXmm p d s1 src
  | .wd, false => .vpunpcklwdXmm p d s1 src
  | .dq, false => .vpunpckldqXmm p d s1 src
  | .qdq, false => .vpunpcklqdqXmm p d s1 src
  | .bw, true => .vpunpcklbwYmm p d s1 src
  | .wd, true => .vpunpcklwdYmm p d s1 src
  | .dq, true => .vpunpckldqYmm p d s1 src
  | .qdq, true => .vpunpcklqdqYmm p d s1 src

/-- The bits W, X, B of a REX byte `0100WRXB` (R63). -/
def rexBits (rex : Byte) : ExtBits := ⟨rex.getLsbD 3, rex.getLsbD 1, rex.getLsbD 0⟩

/-- REX.R; 0 when there is no REX prefix (R65). -/
def rexR : Option Byte → Bool
  | none => false
  | some rex => rex.getLsbD 2

/-- The form whose opcode byte, prefixes and operand bytes are known: XMM when 66H is a prefix, else MMX, whose register fields no
REX bit may extend (R65, R80). -/
def legacyForm (pfx : List Byte) (rex : Option Byte) (o : Opc) (reg : BitVec 3) (rm : RM (BitVec 3)) : Decoded :=
  let p := rex.map rexBits
  if pfx.contains 0x66#8 then .instr (xmmInstr o p (regNum (rexR rex) reg) (rm.map (regNum (ExtBits.bOf p))))
  else if rexR rex || (ExtBits.bOf p && rm.isReg) then .refused .mmxRegisterExtension
  else
    match mmInstr o p (mmNum reg) (rm.map mmNum) with
    | some i => .instr i
    | none => .refused .notThisGroup

/-- After the escape byte 0F (R80). -/
def decodeLegacy (pfx : List Byte) (rex : Option Byte) (bytes : List Byte) : Decoded :=
  match bytes with
  | [] => .refused .truncated
  | op :: rest =>
    match opcOf op with
    | none => .refused .notThisGroup
    | some o =>
      if o = .qdq ∧ ¬ pfx.contains 0x66#8 then .refused .notThisGroup
      else if pfx.any isSegOrAddrPrefix || pfx.any isRepPrefix || decide (1 < pfx.count 0x66#8) then
        .refused .prefixNotAdmitted
      else if pfx.contains 0xF0#8 then .ud
      else
        match takeModRM (ExtBits.xOf (rex.map rexBits)) (ExtBits.bOf (rex.map rexBits)) rest with
        | none => .refused .truncated
        | some (reg, rm) => legacyForm pfx rex o reg rm

/-- After a VEX prefix (R80). `last` is the prefix's last byte, whose bits 6:0 are `vvvv' L pp` in both forms (R68); `r` is VEX.R,
not inverted; `p` holds the 3-byte form's bits, not inverted; `mmmmm` is 00001B in the 2-byte form. -/
def decodeVex (m : Mode) (pfx : List Byte) (rexPresent : Bool) (r : Bool) (mmmmm : BitVec 5) (p : VexPfx) (last : Byte)
    (bytes : List Byte) : Decoded :=
  match bytes with
  | [] => .refused .truncated
  | op :: rest =>
    match opcOf op with
    | none => .refused .notThisGroup
    | some o =>
      if mmmmm ≠ 1#5 ∨ last.extractLsb' 0 2 ≠ 1#2 then .refused .notThisGroup
      else if pfx.any isSegOrAddrPrefix then .refused .prefixNotAdmitted
      else if !pfx.isEmpty || rexPresent then .ud
      else if m = .mode32 ∧ (ExtBits.bOf p = true ∨ last.getLsbD 6 = false) then .refused .vex32ReservedBits
      else
        match takeModRM (ExtBits.xOf p) (ExtBits.bOf p) rest with
        | none => .refused .truncated
        | some (reg, rm) =>
          .instr (vexInstr o (last.getLsbD 2) p (regNum r reg) (vvvvNum (last.extractLsb' 3 4))
            (rm.map (regNum (ExtBits.bOf p))))

/-- In Mode32, C4H and C5H begin a VEX prefix only when bits 7:6 of the next byte are 11B (R68, R80). -/
def isVexNext (m : Mode) (v1 : Byte) : Bool := m == .mode64 || v1.extractLsb' 6 2 == 3#2

/-- After the legacy prefixes and the REX prefix (R80): the escape byte 0F, a VEX prefix, or another instruction. -/
def decodeOpcode (m : Mode) (pfx : List Byte) (rex : Option Byte) (b : Byte) (bytes : List Byte) : Decoded :=
  if b = 0x0F#8 then decodeLegacy pfx rex bytes
  else if b = 0xC5#8 then
    match bytes with
    | [] => .refused .truncated
    | v1 :: rest =>
      if isVexNext m v1 then decodeVex m pfx rex.isSome (!v1.getLsbD 7) 1#5 none v1 rest
      else .refused .notThisGroup
  else if b = 0xC4#8 then
    match bytes with
    | [] => .refused .truncated
    | v1 :: rest =>
      if isVexNext m v1 then
        match rest with
        | [] => .refused .truncated
        | v2 :: rest' =>
          decodeVex m pfx rex.isSome (!v1.getLsbD 7) (v1.extractLsb' 0 5)
            (some ⟨v2.getLsbD 7, !v1.getLsbD 6, !v1.getLsbD 5⟩) v2 rest'
      else .refused .notThisGroup
  else .refused .notThisGroup

/-- After the run of legacy prefixes `pfx` (R80): a REX prefix, in Mode64, must be the last prefix. -/
def decodeAfterPrefixes (m : Mode) (pfx : List Byte) (bytes : List Byte) : Decoded :=
  match bytes with
  | [] => .refused .truncated
  | b :: rest =>
    if m = .mode64 ∧ isRex b = true then
      match rest with
      | [] => .refused .truncated
      | c :: rest' =>
        if isLegacyPrefix c || isRex c then .refused .prefixNotAdmitted
        else decodeOpcode m pfx (some b) c rest'
    else decodeOpcode m pfx none b rest

/-- `Decode(pc)` of R80, on the program bytes from pc on. -/
def decode (m : Mode) (bytes : List Byte) : Decoded :=
  decodeAfterPrefixes m (bytes.takeWhile isLegacyPrefix) (bytes.dropWhile isLegacyPrefix)

/-! ### Instruction length -/

/-- Displacement bytes (R73). -/
def dispLen : Disp → Nat
  | .none => 0
  | .d8 _ => 1
  | .d32 _ => 4

/-- Bytes from the ModRM byte on (R73): ModRM, SIB, displacement. -/
def rmLen {ρ : Type} : RM ρ → Nat
  | .reg _ => 1
  | .mem (.base _ d) => 1 + dispLen d
  | .mem (.disp32 _) => 1 + 4
  | .mem (.sib _ _ _ d) => 1 + 1 + dispLen d
  | .mem (.sibDisp32 _ _ _) => 1 + 1 + 4

/-- `len` of an MMX form (R73). -/
def mmLen (p : RexPfx) (src : RM MmReg) : Nat := (if p.isSome then 1 else 0) + 2 + rmLen src

/-- `len` of a 128-bit legacy form (R73): the 66H prefix counts. -/
def xmmLen (p : RexPfx) (src : RM VReg) : Nat := 1 + (if p.isSome then 1 else 0) + 2 + rmLen src

/-- `len` of a VEX form (R73): prefix of 2 or 3 bytes, one opcode byte. -/
def vexLen (p : VexPfx) (src : RM VReg) : Nat := (if p.isSome then 3 else 2) + 1 + rmLen src

/-- `len` (R73). -/
def instrLen : Instr → Nat
  | .punpcklbwMm p _ src => mmLen p src
  | .punpcklwdMm p _ src => mmLen p src
  | .punpckldqMm p _ src => mmLen p src
  | .punpcklbwXmm p _ src => xmmLen p src
  | .punpcklwdXmm p _ src => xmmLen p src
  | .punpckldqXmm p _ src => xmmLen p src
  | .punpcklqdqXmm p _ src => xmmLen p src
  | .vpunpcklbwXmm p _ _ src => vexLen p src
  | .vpunpcklwdXmm p _ _ src => vexLen p src
  | .vpunpckldqXmm p _ _ src => vexLen p src
  | .vpunpcklqdqXmm p _ _ src => vexLen p src
  | .vpunpcklbwYmm p _ _ src => vexLen p src
  | .vpunpcklwdYmm p _ _ src => vexLen p src
  | .vpunpckldqYmm p _ _ src => vexLen p src
  | .vpunpcklqdqYmm p _ _ src => vexLen p src

/-! ### The encoder -/

/-- A ModRM or SIB byte from its three fields (R64, R66). -/
def packFields (hi : BitVec 2) (mid lo : BitVec 3) : Byte := (hi ++ mid ++ lo).cast rfl

/-- The four bytes of a `disp32`, little-endian (R41). -/
def disp32Bytes (v : BitVec 32) : List Byte :=
  [v.extractLsb' 0 8, v.extractLsb' 8 8, v.extractLsb' 16 8, v.extractLsb' 24 8]

/-- `mod` for a base with this displacement (R66). -/
def dispMod : Disp → BitVec 2
  | .none => 0#2
  | .d8 _ => 1#2
  | .d32 _ => 2#2

/-- The displacement's bytes. -/
def dispBytes : Disp → List Byte
  | .none => []
  | .d8 v => [v]
  | .d32 v => disp32Bytes v

/-- ModRM, SIB and displacement (R64, R66). -/
def encodeRM (reg : BitVec 3) : RM (BitVec 3) → List Byte
  | .reg rm => [packFields 3#2 reg rm]
  | .mem (.base b d) => packFields (dispMod d) reg (regLo b) :: dispBytes d
  | .mem (.disp32 v) => packFields 0#2 reg 5#3 :: disp32Bytes v
  | .mem (.sib scale i b d) =>
    packFields (dispMod d) reg 4#3 :: packFields scale (regLo i) (regLo b) :: dispBytes d
  | .mem (.sibDisp32 scale i v) =>
    packFields 0#2 reg 4#3 :: packFields scale (regLo i) 5#3 :: disp32Bytes v

/-- The REX byte `0100WRXB`, when there is one (R63). -/
def rexBytes (r : Bool) : RexPfx → List Byte
  | none => []
  | some e => [(4#4 ++ BitVec.ofBool e.w ++ BitVec.ofBool r ++ BitVec.ofBool e.x ++ BitVec.ofBool e.b).cast rfl]

/-- A VEX prefix's last byte (R68): its top bit, then `vvvv' L pp` with `pp` = 01B. -/
def vexLastByte (top : Bool) (s1 : VReg) (l : Bool) : Byte :=
  (BitVec.ofBool top ++ vvvvBits s1 ++ BitVec.ofBool l ++ 1#2).cast rfl

/-- A VEX prefix (R68), `mmmmm` = 00001B. -/
def vexBytes (p : VexPfx) (r : Bool) (s1 : VReg) (l : Bool) : List Byte :=
  match p with
  | none => [0xC5#8, vexLastByte (!r) s1 l]
  | some e =>
    [0xC4#8, (BitVec.ofBool (!r) ++ BitVec.ofBool (!e.x) ++ BitVec.ofBool (!e.b) ++ 1#5).cast rfl, vexLastByte e.w s1 l]

/-- The bytes of an MMX form (R60, R61). -/
def encodeMm (o : Opc) (p : RexPfx) (d : MmReg) (src : RM MmReg) : List Byte :=
  rexBytes false p ++ 0x0F#8 :: opcByte o :: encodeRM (mmLo d) (src.map mmLo)

/-- The bytes of a 128-bit legacy form (R60 to R62). -/
def encodeXmm (o : Opc) (p : RexPfx) (d : VReg) (src : RM VReg) : List Byte :=
  0x66#8 :: rexBytes (regHi d) p ++ 0x0F#8 :: opcByte o :: encodeRM (regLo d) (src.map regLo)

/-- The bytes of a VEX form (R60, R68). -/
def encodeVex (o : Opc) (l : Bool) (p : VexPfx) (d s1 : VReg) (src : RM VReg) : List Byte :=
  vexBytes p (regHi d) s1 l ++ opcByte o :: encodeRM (regLo d) (src.map regLo)

/-- The bytes of an instruction, first byte first (R60). -/
def encode : Instr → List Byte
  | .punpcklbwMm p d src => encodeMm .bw p d src
  | .punpcklwdMm p d src => encodeMm .wd p d src
  | .punpckldqMm p d src => encodeMm .dq p d src
  | .punpcklbwXmm p d src => encodeXmm .bw p d src
  | .punpcklwdXmm p d src => encodeXmm .wd p d src
  | .punpckldqXmm p d src => encodeXmm .dq p d src
  | .punpcklqdqXmm p d src => encodeXmm .qdq p d src
  | .vpunpcklbwXmm p d s1 src => encodeVex .bw false p d s1 src
  | .vpunpcklwdXmm p d s1 src => encodeVex .wd false p d s1 src
  | .vpunpckldqXmm p d s1 src => encodeVex .dq false p d s1 src
  | .vpunpcklqdqXmm p d s1 src => encodeVex .qdq false p d s1 src
  | .vpunpcklbwYmm p d s1 src => encodeVex .bw true p d s1 src
  | .vpunpcklwdYmm p d s1 src => encodeVex .wd true p d s1 src
  | .vpunpckldqYmm p d s1 src => encodeVex .dq true p d s1 src
  | .vpunpcklqdqYmm p d s1 src => encodeVex .qdq true p d s1 src

/-! ### A word of the opcode table -/

/-- The low `8 * k` bits of `w` as `k` bytes, the highest first: the table writes the first byte of an instruction in the high
byte of the word (R72; log 25). -/
def bytesHighFirst (k w : Nat) : List Byte :=
  match k with
  | 0 => []
  | k + 1 => BitVec.ofNat 8 (w >>> (8 * k)) :: bytesHighFirst k w

/-- The prefix bytes that stand before a word of the table (R72): a legacy row's word is the two bytes `0F op` after the prefixes,
and the only row whose word is 0F6CH has the mandatory prefix 66H (log 25). -/
def tablePrefix (nbits w : Nat) : List Byte :=
  if nbits = 16 ∧ w % 65536 = 0x0F6C then [0x66#8] else []

/-- The length of the longest instruction (R73). -/
def maxInstrLen : Nat := 10

/-- The bytes of the instruction that a word of the table stands for, every bit above `nbits` zero. -/
def tableBytes (nbits w : Nat) : List Byte :=
  tablePrefix nbits w ++ bytesHighFirst ((nbits + 7) / 8) w ++ List.replicate (maxInstrLen - (nbits + 7) / 8) 0#8

/-- The instruction the decoder reads, in the mode of the reset state, from a word of the table. -/
def decodeTableWord (nbits w : Nat) : Option Instr :=
  match decode Env.reset.mode (tableBytes nbits w) with
  | .instr i => some i
  | .ud => none
  | .refused _ => none

end Sys2Proof
end

