-- ==== Sys2Proof/Machine/State.lean ====
section
/-! DEFINITION. The machine's state as plain data, the reasons a step can stop, and the state at reset
(spec/10_state.md, spec/60_exceptions.md R150, spec/70_reset_and_hazards.md R180 to R182). -/

namespace Sys2Proof.Machine

/-- The segment of a data access (R47, R66): the default segments only, since overrides are refused (D18, D26). -/
inductive Seg where
  | ds
  | ss
deriving DecidableEq, Repr

/-- The exceptions of R150. Every one is a fault: it ends the run and leaves the state as it was (R161). -/
inductive Exc where
  /-- `#UD`, raised by the decoder (R74(c)) and by the pre-checks of every form (R151, R153, R154). Safe. -/
  | ud
  /-- `#NM`, raised by the pre-checks of every form (R155). Safe. -/
  | nm
  /-- `#MF`, raised by the pre-checks of the MMX forms (R156). Safe. -/
  | mf
  /-- `#SS(0)`, raised by the access check for an illegal address in SS (R158). Safe. -/
  | ss
  /-- `#GP(0)`, raised by the access check for an illegal address in DS and for a misaligned `m128` (R45, R158). Safe. -/
  | gp
  /-- `#PF(code)` with the faulting linear address, raised by the access check (R158). Safe. -/
  | pf (code : Nat) (linear : Addr)
  /-- `#AC(0)`, raised by the access check of the MMX forms (R160). Safe. -/
  | ac
deriving DecidableEq, Repr

/-- Why a run ends in a fault. -/
inductive Fault where
  /-- An exception of R150, raised by the instruction at `pc`: the terminal outcome of R161. `Machine.raise` makes it. Safe: the
  hardware would go on in a handler that no source describes (R164, D12; log 11). -/
  | exception (e : Exc) (pc : Addr)
deriving DecidableEq, Repr

/-- Why the model gives no next state and no fault (R11). -/
inductive Refusal where
  /-- An instruction of the opcode table without a meaning: raised by `exec` only; none is left. Safe. -/
  | notModelled (mnemonic : String)
  /-- The bytes at pc are none of the fifteen forms in a shape the spec gives a meaning: raised by `step`, by the name R79 gives
  it. Safe: the spec claims nothing about them (R11). -/
  | notDecoded (r : DecodeRefusal)
  /-- pc is at the end of the program: the state is final and there is no next step (R184). Raised by `step`. Safe (log 10). -/
  | endOfRun
  /-- pc is neither in the program nor at its end; no run from a launch gets there. Raised by `step`. Safe (log 10). -/
  | pcOutsideProgram
  /-- The program does not lie wholly below the top of the address space (R24, R182). Raised by `step`. Safe (log 10). -/
  | programPastTop
deriving DecidableEq, Repr

/-- An answer of `Access.segment` (R47): the linear address, or the fault of the segment asked for. -/
inductive SegAnswer where
  | linear (la : Addr)
  | fault
deriving DecidableEq, Repr

/-- An answer of `Access.page` (R47): the access is allowed, or `#PF(code)` at a linear address. -/
inductive PageAnswer where
  | ok
  | fault (code : Nat) (linear : Addr)
deriving DecidableEq, Repr

/-- One answer of the parameter `Access.segment`, for one segment, effective address and byte count (D8; log 6). -/
structure SegRow where
  seg : Seg
  ea : Addr
  n : Nat
  answer : SegAnswer
deriving DecidableEq, Repr

/-- One answer of the parameter `Access.page`, for one linear address and byte count (D8; log 6). -/
structure PageRow where
  la : Addr
  n : Nat
  answer : PageAnswer
deriving DecidableEq, Repr

/-- A run of allocated linear addresses: `first` and the `size - 1` addresses after it (R47, R54). -/
structure Region where
  first : Nat
  size : Nat
deriving DecidableEq, Repr

/-- Memory contents: (address, byte) pairs in the canonical form `Memory.wf` of Ops.lean (R29, R40). -/
abbrev Memory := List Host.Cell

/-- The vector register file (R21, R22): sixteen registers, YMM[0..15], in Mode64; eight, YMM[0..7], in Mode32, where the model keeps
no state for 8 to 15. XMM[i] is bits 127:0 of YMM[i]. -/
inductive YmmFile where
  | sixteen (r : Vector (BitVec 256) 16)
  | eight (r : Vector (BitVec 256) 8)
deriving DecidableEq, Repr

/-- The state: the tuple `(MM, YMM, GPR, pc, Mem)` of spec/10_state.md, and the parameters of R31, which no step writes (log 1). -/
structure State where
  /-- MM[0..7] (R20). -/
  mm : Vector (BitVec 64) 8
  /-- YMM[0..15] in Mode64, YMM[0..7] in Mode32 (R21, R22). That its shape is the mode's is part of the invariant (log 19). -/
  ymm : YmmFile
  /-- GPR[0..15] (R23). -/
  gpr : Vector (BitVec 64) 16
  /-- RIP, or EIP zero-extended (R24; log 31). -/
  pc : Addr
  /-- Mem (R29). -/
  mem : Memory
  /-- The record `Env` (R26). -/
  env : Env
  /-- The linear address of the program (R182). -/
  base : Addr
  /-- The program's bytes (R31, R182). -/
  program : List Byte
  /-- The allocated set of the launch memory (R47, R180). -/
  alloc : List Region
  /-- MODEL's own: answers of `Access.segment` that replace the flat instance's (R47, D8; log 6). -/
  segAnswers : List SegRow
  /-- MODEL's own: answers of `Access.page` that replace the flat instance's (R47, D8; log 6). -/
  pageAnswers : List PageRow
deriving DecidableEq, Repr

/-- DESIGN CHOICE (log 2 to log 6): the state at reset. The spec gives no reset value for anything (R30, R180). Registers and pc are
zero, no program is placed, memory lists nothing and every linear address is allocated. -/
def State.reset : State where
  mm := Vector.replicate 8 0#64
  ymm := .sixteen (Vector.replicate 16 0#256)
  gpr := Vector.replicate 16 0#64
  pc := 0#64
  mem := []
  env := Env.reset
  base := 0#64
  program := []
  alloc := [⟨0, 2 ^ 64⟩]
  segAnswers := []
  pageAnswers := []

end Sys2Proof.Machine
end

