-- ==== Sys2Proof/Machine/Flags.lean ====
section
/-! DEFINITION. The flags the instructions read: the CPUID feature flags and control bits of the pre-checks
(spec/60_exceptions.md R151 to R157). No form reads or writes a status flag ("Flags Affected: None.", spec/10_state.md R25), so there
is no flag computation and no flags register. A prefix that R157 tests for does not reach a pre-check: the decoder raises its `#UD`
(spec/30_encoding.md R80; log 16). -/

namespace Sys2Proof.Machine

/-- `PreChecksMMX()` (R157): `#UD`, `#NM`, `#MF` in that order. -/
def preChecksMmx (env : Env) : Option Exc :=
  if !env.cpuidMMX || env.cr0EM then some .ud
  else if env.cr0TS then some .nm
  else if env.x87ExceptionPending then some .mf
  else none

/-- `PreChecksSSE()` (R157): `#UD` then `#NM`. -/
def preChecksSse (env : Env) : Option Exc :=
  if !env.cpuidSSE2 || env.cr0EM || !env.cr4OSFXSR then some .ud
  else if env.cr0TS then some .nm
  else none

/-- `PreChecksVEX(flag)` (R157): `#UD` then `#NM`; `cpuidFlag` is the form's CPUID feature flag. -/
def preChecksVex (env : Env) (cpuidFlag : Bool) : Option Exc :=
  if !env.cr4OSXSAVE || !env.xcr0SSE || !env.xcr0AVX then some .ud
  else if !cpuidFlag then some .ud
  else if env.cr0TS then some .nm
  else none

end Sys2Proof.Machine
end

