-- ==== Sys2Proof/Machine/Interleave.lean ====
section
/-! DEFINITION. The interleave functions of spec/40_interleave_functions.md: the page's listings (R90 to R98), highest slice first,
which the instructions use, and the general form (R100), which the listings equal. `v.extractLsb' lo w` is the slice
`v[lo + w - 1 : lo]`. They read no state. -/

namespace Sys2Proof.Machine

/-! ### 64-bit listings (R98): `d` the old destination, `s` the source -/

/-- `INTERLEAVE_BYTES_64` (R98). -/
def interleaveBytes64 (d : BitVec 64) (s : BitVec 32) : BitVec 64 :=
  (s.extractLsb' 24 8 ++ d.extractLsb' 24 8 ++
   s.extractLsb' 16 8 ++ d.extractLsb' 16 8 ++
   s.extractLsb' 8 8 ++ d.extractLsb' 8 8 ++
   s.extractLsb' 0 8 ++ d.extractLsb' 0 8).cast rfl

/-- `INTERLEAVE_WORDS_64` (R98). -/
def interleaveWords64 (d : BitVec 64) (s : BitVec 32) : BitVec 64 :=
  (s.extractLsb' 16 16 ++ d.extractLsb' 16 16 ++
   s.extractLsb' 0 16 ++ d.extractLsb' 0 16).cast rfl

/-- `INTERLEAVE_DWORDS_64` (R98). -/
def interleaveDwords64 (d : BitVec 64) (s : BitVec 32) : BitVec 64 :=
  (s.extractLsb' 0 32 ++ d.extractLsb' 0 32).cast rfl

/-! ### 128-bit functions -/

/-- `INTERLEAVE_BYTES` (R90, with the misprint of its third line corrected: C1). -/
def interleaveBytes (src1 src2 : BitVec 128) : BitVec 128 :=
  (src2.extractLsb' 56 8 ++ src1.extractLsb' 56 8 ++
   src2.extractLsb' 48 8 ++ src1.extractLsb' 48 8 ++
   src2.extractLsb' 40 8 ++ src1.extractLsb' 40 8 ++
   src2.extractLsb' 32 8 ++ src1.extractLsb' 32 8 ++
   src2.extractLsb' 24 8 ++ src1.extractLsb' 24 8 ++
   src2.extractLsb' 16 8 ++ src1.extractLsb' 16 8 ++
   src2.extractLsb' 8 8 ++ src1.extractLsb' 8 8 ++
   src2.extractLsb' 0 8 ++ src1.extractLsb' 0 8).cast rfl

/-- `INTERLEAVE_WORDS` (R92). -/
def interleaveWords (src1 src2 : BitVec 128) : BitVec 128 :=
  (src2.extractLsb' 48 16 ++ src1.extractLsb' 48 16 ++
   src2.extractLsb' 32 16 ++ src1.extractLsb' 32 16 ++
   src2.extractLsb' 16 16 ++ src1.extractLsb' 16 16 ++
   src2.extractLsb' 0 16 ++ src1.extractLsb' 0 16).cast rfl

/-- `INTERLEAVE_DWORDS` (R94). -/
def interleaveDwords (src1 src2 : BitVec 128) : BitVec 128 :=
  (src2.extractLsb' 32 32 ++ src1.extractLsb' 32 32 ++
   src2.extractLsb' 0 32 ++ src1.extractLsb' 0 32).cast rfl

/-- `INTERLEAVE_QWORDS` (R96). -/
def interleaveQwords (src1 src2 : BitVec 128) : BitVec 128 :=
  (src2.extractLsb' 0 64 ++ src1.extractLsb' 0 64).cast rfl

/-! ### 256-bit functions: each 128-bit lane on its own -/

/-- `INTERLEAVE_BYTES_256b` (R91). -/
def interleaveBytes256 (src1 src2 : BitVec 256) : BitVec 256 :=
  (src2.extractLsb' 184 8 ++ src1.extractLsb' 184 8 ++
   src2.extractLsb' 176 8 ++ src1.extractLsb' 176 8 ++
   src2.extractLsb' 168 8 ++ src1.extractLsb' 168 8 ++
   src2.extractLsb' 160 8 ++ src1.extractLsb' 160 8 ++
   src2.extractLsb' 152 8 ++ src1.extractLsb' 152 8 ++
   src2.extractLsb' 144 8 ++ src1.extractLsb' 144 8 ++
   src2.extractLsb' 136 8 ++ src1.extractLsb' 136 8 ++
   src2.extractLsb' 128 8 ++ src1.extractLsb' 128 8 ++
   src2.extractLsb' 56 8 ++ src1.extractLsb' 56 8 ++
   src2.extractLsb' 48 8 ++ src1.extractLsb' 48 8 ++
   src2.extractLsb' 40 8 ++ src1.extractLsb' 40 8 ++
   src2.extractLsb' 32 8 ++ src1.extractLsb' 32 8 ++
   src2.extractLsb' 24 8 ++ src1.extractLsb' 24 8 ++
   src2.extractLsb' 16 8 ++ src1.extractLsb' 16 8 ++
   src2.extractLsb' 8 8 ++ src1.extractLsb' 8 8 ++
   src2.extractLsb' 0 8 ++ src1.extractLsb' 0 8).cast rfl

/-- `INTERLEAVE_WORDS_256b` (R93). -/
def interleaveWords256 (src1 src2 : BitVec 256) : BitVec 256 :=
  (src2.extractLsb' 176 16 ++ src1.extractLsb' 176 16 ++
   src2.extractLsb' 160 16 ++ src1.extractLsb' 160 16 ++
   src2.extractLsb' 144 16 ++ src1.extractLsb' 144 16 ++
   src2.extractLsb' 128 16 ++ src1.extractLsb' 128 16 ++
   src2.extractLsb' 48 16 ++ src1.extractLsb' 48 16 ++
   src2.extractLsb' 32 16 ++ src1.extractLsb' 32 16 ++
   src2.extractLsb' 16 16 ++ src1.extractLsb' 16 16 ++
   src2.extractLsb' 0 16 ++ src1.extractLsb' 0 16).cast rfl

/-- `INTERLEAVE_DWORDS_256b` (R95). -/
def interleaveDwords256 (src1 src2 : BitVec 256) : BitVec 256 :=
  (src2.extractLsb' 160 32 ++ src1.extractLsb' 160 32 ++
   src2.extractLsb' 128 32 ++ src1.extractLsb' 128 32 ++
   src2.extractLsb' 32 32 ++ src1.extractLsb' 32 32 ++
   src2.extractLsb' 0 32 ++ src1.extractLsb' 0 32).cast rfl

/-- `INTERLEAVE_QWORDS_256b` (R97). -/
def interleaveQwords256 (src1 src2 : BitVec 256) : BitVec 256 :=
  (src2.extractLsb' 128 64 ++ src1.extractLsb' 128 64 ++
   src2.extractLsb' 0 64 ++ src1.extractLsb' 0 64).cast rfl

/-- The 256-bit value with the given 128-bit lanes, `hi || lo`. -/
def joinLanes (hi lo : BitVec 128) : BitVec 256 := (hi ++ lo).cast rfl

/-! ### The general form (R100) -/

/-- Bit `j` of the interleave of elements of `w` bits: result element `j / w` is element `j / (2 * w)` of the first source when it
is even and of the second when it is odd (R100). -/
def interleaveBit {n m : Nat} (w : Nat) (a : BitVec n) (b : BitVec m) (j : Nat) : Bool :=
  if j / w % 2 = 0 then a.getLsbD (w * (j / (2 * w)) + j % w) else b.getLsbD (w * (j / (2 * w)) + j % w)

/-- `Interleave(w, a, b)` (R100), for `w` in 8, 16, 32, 64. -/
def interleave (w : Nat) (a b : BitVec 128) : BitVec 128 :=
  BitVec.ofFnLE fun j : Fin 128 => interleaveBit w a b j.val

/-- `Interleave64(w, a, b)` (R100), for `w` in 8, 16, 32. -/
def interleave64 (w : Nat) (a : BitVec 64) (b : BitVec 32) : BitVec 64 :=
  BitVec.ofFnLE fun j : Fin 64 => interleaveBit w a b j.val

/-- `Interleave256(w, a, b)` (R100): each 128-bit lane on its own. -/
def interleave256 (w : Nat) (a b : BitVec 256) : BitVec 256 :=
  joinLanes (interleave w (a.extractLsb' 128 128) (b.extractLsb' 128 128))
    (interleave w (a.extractLsb' 0 128) (b.extractLsb' 0 128))

end Sys2Proof.Machine
end

