-- ==== Sys2Proof/Machine/Ops.lean ====
section
/-! DEFINITION. The named operations over memory and registers, the access check, and raising an exception
(spec/00_scope.md R10, spec/20_memory.md, spec/60_exceptions.md R150 and R161). -/

namespace Sys2Proof.Machine

/-! ### Addresses -/

/-- The top of the address space: the highest linear address of a mode, of 64 or 32 bits (R29). -/
def addrTop : Mode → Nat
  | .mode64 => 2 ^ 64 - 1
  | .mode32 => 2 ^ 32 - 1

/-- An address in the width of the mode, zero-extended: all of it in Mode64, bits 31:0 in Mode32 (R24, R29, R67). -/
def truncAddr (m : Mode) (a : Addr) : Addr :=
  match m with
  | .mode64 => a
  | .mode32 => (a.setWidth 32).setWidth 64

/-- The linear address of byte `k` of an operand at `la`. DESIGN CHOICE (log 9): the sum is taken in the width of a linear
address, as R66 and R67 take the effective address. -/
def operandByteAddr (m : Mode) (la : Addr) (k : Nat) : Nat := (truncAddr m (la + BitVec.ofNat 64 k)).toNat

/-! ### Memory -/

/-- DESIGN CHOICE (log 5): what an address that memory does not list reads as. -/
def unlistedByte : Byte := 0#8

/-- Every cell lies below `2^64`, lists a byte other than the unlisted one, and has an address above `lo`'s (none below it). -/
def Memory.wfFrom (lo : Nat) : Memory → Bool
  | [] => true
  | (a, v) :: rest => decide (lo ≤ a) && decide (a < 2 ^ 64) && v != unlistedByte && Memory.wfFrom (a + 1) rest

/-- The canonical form: addresses strictly rising, below `2^64`, and no entry equal to what an unlisted address reads as. -/
def Memory.wf (mem : Memory) : Bool := Memory.wfFrom 0 mem

/-- The byte at a linear address. -/
def Memory.read (mem : Memory) (a : Nat) : Byte :=
  match mem with
  | [] => unlistedByte
  | (b, v) :: rest => if b = a then v else Memory.read rest a

/-- Memory with the byte at `a` set to `v`: the entry is replaced, inserted in order, or removed when `v` is the unlisted byte. -/
def Memory.write (mem : Memory) (a : Nat) (v : Byte) : Memory :=
  match mem with
  | [] => if v = unlistedByte then [] else [(a, v)]
  | (b, u) :: rest =>
    if a < b then (if v = unlistedByte then (b, u) :: rest else (a, v) :: (b, u) :: rest)
    else if a = b then (if v = unlistedByte then rest else (b, v) :: rest)
    else (b, u) :: Memory.write rest a v

/-- `MemRead(la, n)`: byte `k` of the value is the byte at `la + k`, little-endian (R10, R42). -/
def memRead (m : Mode) (mem : Memory) (la : Addr) : (n : Nat) → BitVec (8 * n)
  | 0 => 0#0
  | n + 1 => (memRead m mem (la + 1#64) n ++ mem.read (operandByteAddr m la 0)).cast (by omega)

/-- `MemWrite(la, n, v)`, the matching write (R10). No instruction uses it; it builds launch memories. -/
def memWrite (m : Mode) (mem : Memory) (la : Addr) : (n : Nat) → BitVec (8 * n) → Memory
  | 0, _ => mem
  | n + 1, v =>
    memWrite m (mem.write (operandByteAddr m la 0) (v.extractLsb' 0 8)) (la + 1#64) n (v.extractLsb' 8 (8 * n))

/-- The byte at a linear address of the state's memory. -/
def State.readByte (s : State) (a : Nat) : Byte := s.mem.read a

/-! ### Registers -/

/-- `MM[i]` (R10, R20). -/
def State.readMm (s : State) (i : MmReg) : BitVec 64 := s.mm[i.val]

/-- `MM[i] <- v` (R10). -/
def State.writeMm (s : State) (i : MmReg) (v : BitVec 64) : State := { s with mm := s.mm.set i.val v }

/-- How many vector registers a mode has (R22). -/
def vregCount : Mode → Nat
  | .mode64 => 16
  | .mode32 => 8

/-- How many registers a vector register file holds. -/
def YmmFile.size : YmmFile → Nat
  | .sixteen _ => 16
  | .eight _ => 8

/-- The register numbered `i`; a free value where the file has none (log 19). -/
def YmmFile.read (f : YmmFile) (i : VReg) : BitVec 256 :=
  match f with
  | .sixteen r => r[i.val]
  | .eight r => if h : i.val < 8 then r[i.val] else Config.absentRegister i

/-- The file with register `i` set to `v`; the same file where it has no such register (log 19). -/
def YmmFile.write (f : YmmFile) (i : VReg) (v : BitVec 256) : YmmFile :=
  match f with
  | .sixteen r => .sixteen (r.set i.val v)
  | .eight r => .eight (r.setIfInBounds i.val v)

/-- The state has vector register `i` (R22). -/
def State.hasYmm (s : State) (i : VReg) : Bool := decide (i.val < s.ymm.size)

/-- `YMM[i]` (R10, R21). -/
def State.readYmm (s : State) (i : VReg) : BitVec 256 := s.ymm.read i

/-- `XMM[i]`, that is `YMM[i][127:0]` (R10, R21). -/
def State.readXmm (s : State) (i : VReg) : BitVec 128 := (s.readYmm i).extractLsb' 0 128

/-- `YMM[i] <- v` (R10). -/
def State.writeYmm (s : State) (i : VReg) (v : BitVec 256) : State := { s with ymm := s.ymm.write i v }

/-- Bits 127:0 of `YMM[i]` written, bits 255:128 unchanged: the 128-bit legacy forms' write (R21, R120). -/
def State.writeXmmKeepUpper (s : State) (i : VReg) (v : BitVec 128) : State :=
  s.writeYmm i (joinLanes ((s.readYmm i).extractLsb' 128 128) v)

/-- Bits 127:0 of `YMM[i]` written, bits 255:128 zero: the VEX.128 forms' write (R21, R130). -/
def State.writeXmmZeroUpper (s : State) (i : VReg) (v : BitVec 128) : State :=
  s.writeYmm i (joinLanes 0#128 v)

/-- `GPR[i]` (R10, R23). -/
def State.readGpr (s : State) (i : GReg) : BitVec 64 := s.gpr[i.val]

/-- The address of the next instruction, `pc + len`, in the width of the mode (R24, R66). -/
def nextPc (s : State) (len : Nat) : Addr := truncAddr s.env.mode (s.pc + BitVec.ofNat 64 len)

/-- `pc <- pc + len` (R24, R73). -/
def State.advance (s : State) (len : Nat) : State := { s with pc := nextPc s len }

/-! ### Exceptions -/

/-- The vector number of an exception (R150). -/
def excVector : Exc → Nat
  | .ud => 6
  | .nm => 7
  | .mf => 16
  | .ss => 12
  | .gp => 13
  | .pf _ _ => 14
  | .ac => 17

/-- The error code of an exception; `none` where R150 gives none. -/
def excErrorCode : Exc → Option Nat
  | .ud => none
  | .nm => none
  | .mf => none
  | .ss => some 0
  | .gp => some 0
  | .pf code _ => some code
  | .ac => some 0

/-- The linear address an exception records: `#PF` only (R150, R161). -/
def excLinear : Exc → Option Addr
  | .ud => none
  | .nm => none
  | .mf => none
  | .ss => none
  | .gp => none
  | .pf _ la => some la
  | .ac => none

/-- The terminal record of R161. -/
structure FaultRecord where
  vector : Nat
  errorCode : Option Nat
  pc : Addr
  linear : Option Addr
deriving DecidableEq, Repr

/-- The record `(vector, error code, pc, linear address for #PF)` of a fault (R161). -/
def faultRecord : Fault → FaultRecord
  | .exception e pc => ⟨excVector e, excErrorCode e, pc, excLinear e⟩

/-- Taking an exception, `raise #XX(code)` (R10, R161, R164): the outcome is the fault, with pc still at the faulting instruction; no
state is written, nothing is delivered and no handler runs. There is no return from it (R165). -/
def raise (e : Exc) (s : State) : Host.Outcome State Fault Refusal := .fault (.exception e s.pc)

/-! ### Access -/

/-- The parameter `Access` (R5, R47, D8): segmentation and paging as two functions. -/
structure Access where
  segment : Env → Seg → Addr → Nat → SegAnswer
  page : Env → Addr → Nat → PageAnswer

/-- A linear address is in the allocated set. -/
def allocated (alloc : List Region) (a : Nat) : Bool :=
  alloc.any fun r => decide (r.first ≤ a) && decide (a < r.first + r.size)

/-- Canonical: bits 63:47 all equal, for 48-bit linear addresses (R47; log 7). -/
def canonical (a : Addr) : Bool := a.extractLsb' 47 17 = 0#17 || a.extractLsb' 47 17 = BitVec.allOnes 17

/-- `Access.segment` of the flat instance (R47). -/
def flatSegment (env : Env) (_seg : Seg) (ea : Addr) (n : Nat) : SegAnswer :=
  match env.mode with
  | .mode64 => if canonical ea then .linear ea else .fault
  | .mode32 => if ea.toNat + n - 1 ≤ 0xFFFFFFFF then .linear ea else .fault

/-- The operand's bytes that are not allocated, by their index, lowest first. -/
def missingBytes (m : Mode) (alloc : List Region) (la : Addr) (n : Nat) : List Nat :=
  (List.range n).filter fun k => !allocated alloc (operandByteAddr m la k)

/-- `Access.page` of the flat instance (R47): ok exactly when every byte of the operand is allocated (R44(a)). The address
reported is that of the lowest byte that is not; the code is the free value of Config (log 8). -/
def flatPage (alloc : List Region) (env : Env) (la : Addr) (n : Nat) : PageAnswer :=
  match missingBytes env.mode alloc la n with
  | [] => .ok
  | k :: _ => .fault (Config.pageFaultCode env la n) (BitVec.ofNat 64 (operandByteAddr env.mode la k))

/-- The state's `Access`: an answer of its tables where they have one, else the flat instance's (R47, D8; log 6). -/
def State.access (s : State) : Access where
  segment env seg ea n :=
    match s.segAnswers.find? fun r => r.seg = seg && r.ea = ea && r.n = n with
    | some r => r.answer
    | none => flatSegment env seg ea n
  page env la n :=
    match s.pageAnswers.find? fun r => r.la = la && r.n = n with
    | some r => r.answer
    | none => flatPage s.alloc env la n

/-- The exception of an address that is illegal in a segment (R47, R158). -/
def segFault : Seg → Exc
  | .ss => .ss
  | .ds => .gp

/-- `CheckRead(seg, ea, n, align, align_check)` of R47, for any `Access`: segment, alignment, page, alignment check, in that order. -/
def checkRead (A : Access) (env : Env) (seg : Seg) (ea : Addr) (n align alignCheck : Nat) : Except Exc Addr :=
  match A.segment env seg ea n with
  | .fault => .error (segFault seg)
  | .linear la =>
    if 1 < align ∧ la.toNat % align ≠ 0 then .error .gp
    else
      match A.page env la n with
      | .fault code linear => .error (.pf code linear)
      | .ok =>
        if 1 < alignCheck ∧ env.acEnabled = true ∧ la.toNat % alignCheck ≠ 0 then .error .ac
        else .ok la

/-! ### Completing an instruction -/

/-- The one shape of every form (R110, R120, R130, R140): the pre-checks, then the last source operand, then the writes, all from
the state before the instruction (R9). If a check or the operand raises, no state changes (R161). -/
def complete {α : Type} (check : Option Exc) (operand : Except Exc α) (write : α → State) (s : State) :
    Host.Outcome State Fault Refusal :=
  match check with
  | some e => raise e s
  | none =>
    match operand with
    | .error e => raise e s
    | .ok v => .next (write v)

end Sys2Proof.Machine
end

