-- ==== Sys2Proof/Machine/Operands.lean ====
section
/-! DEFINITION. The operands: the effective address and segment of a memory operand (spec/30_encoding.md R66, R67) and the value of
a register-or-memory operand (spec/20_memory.md R43, R47). -/

namespace Sys2Proof.Machine

/-- The displacement, sign-extended to the address width (R66, R67). -/
def dispValue (w : Nat) : Disp → BitVec w
  | .none => 0
  | .d8 v => v.signExtend w
  | .d32 v => v.signExtend w

/-- The low `w` bits of a general register, the register as an address of width `w` reads it (R66, R67). -/
def gprAddr (w : Nat) (s : State) (r : GReg) : BitVec w := (s.readGpr r).setWidth w

/-- The scaled index (R66): 0 for index number 4, which means no index. -/
def indexValue (w : Nat) (s : State) (scale : BitVec 2) (i : GReg) : BitVec w :=
  if i.val = 4 then 0 else gprAddr w s i <<< scale.toNat

/-- The default segment of a base register: SS for numbers 4 and 5, else DS (R66; log 32). -/
def baseSeg (b : GReg) : Seg := if b.val = 4 ∨ b.val = 5 then .ss else .ds

/-- Segment and effective address in addresses of `w` bits, modulo `2^w` (R66, R67). `rel` is what a bare `disp32` is added to. -/
def effAddrIn (w : Nat) (rel : BitVec w) (s : State) : MemOp → Seg × BitVec w
  | .base b d => (baseSeg b, gprAddr w s b + dispValue w d)
  | .disp32 v => (.ds, rel + v.signExtend w)
  | .sib scale i b d => (baseSeg b, gprAddr w s b + indexValue w s scale i + dispValue w d)
  | .sibDisp32 scale i v => (.ds, indexValue w s scale i + v.signExtend w)

/-- Segment and effective address of a memory operand of an instruction of `len` bytes. Mode64 (R66): 64 bits, a bare `disp32` is
relative to the next instruction. Mode32 (R67): 32 bits, a bare `disp32` is absolute. -/
def effAddr (s : State) (len : Nat) (m : MemOp) : Seg × Addr :=
  match s.env.mode with
  | .mode64 => effAddrIn 64 (nextPc s len) s m
  | .mode32 => ((effAddrIn 32 0 s m).1, (effAddrIn 32 0 s m).2.setWidth 64)

/-- A memory operand of `n` bytes: the access check on all of it, then the read (R44, R47). -/
def loadOperand (s : State) (len : Nat) (m : MemOp) (n align alignCheck : Nat) : Except Exc (BitVec (8 * n)) :=
  match checkRead s.access s.env (effAddr s len m).1 (effAddr s len m).2 n align alignCheck with
  | .error e => .error e
  | .ok la => .ok (memRead s.env.mode s.mem la n)

/-- `mm/m32` (R43, R110): bits 31:0 of an MMX register, or 4 bytes of memory, alignment-checked on 4. -/
def readMmM32 (s : State) (len : Nat) : RM MmReg → Except Exc (BitVec 32)
  | .reg r => .ok ((s.readMm r).extractLsb' 0 32)
  | .mem m => loadOperand s len m 4 1 4

/-- `xmm/m128` (R43, R120, R130): bits 127:0 of a vector register, or 16 bytes of memory, of the alignment given. -/
def readXmmM128 (s : State) (len align : Nat) : RM VReg → Except Exc (BitVec 128)
  | .reg r => .ok (s.readXmm r)
  | .mem m => loadOperand s len m 16 align 1

/-- `ymm/m256` (R43, R140): a vector register, or 32 bytes of memory of any alignment. -/
def readYmmM256 (s : State) (len : Nat) : RM VReg → Except Exc (BitVec 256)
  | .reg r => .ok (s.readYmm r)
  | .mem m => loadOperand s len m 32 1 1

/-- The alignment the VEX.128 forms require: none, or 16 under the parameter of R46 (R130, D7; log 15). -/
def vexM128Align (env : Env) : Nat := if env.vexM128AlignmentEnforced then 16 else 1

end Sys2Proof.Machine
end

