-- ==== Sys2Proof/Machine/Mmx.lean ====
section
/-! DEFINITION. The MMX forms (spec/41_mmx_64bit.md). -/

namespace Sys2Proof.Machine

/-- `ExecMMX(w)` (R110), with the interleave function of the element width. -/
def execMmx (f : BitVec 64 → BitVec 32 → BitVec 64) (p : RexPfx) (d : MmReg) (src : RM MmReg) (s : State) :
    Host.Outcome State Fault Refusal :=
  complete (preChecksMmx s.env) (readMmM32 s (mmLen p src) src)
    (fun v => (s.writeMm d (f (s.readMm d) v)).advance (mmLen p src)) s

/-- `PUNPCKLBW mm, mm/m32` (R111). -/
def execPunpcklbwMm (p : RexPfx) (d : MmReg) (src : RM MmReg) (s : State) : Host.Outcome State Fault Refusal :=
  execMmx interleaveBytes64 p d src s

/-- `PUNPCKLWD mm, mm/m32` (R112). -/
def execPunpcklwdMm (p : RexPfx) (d : MmReg) (src : RM MmReg) (s : State) : Host.Outcome State Fault Refusal :=
  execMmx interleaveWords64 p d src s

/-- `PUNPCKLDQ mm, mm/m32` (R113). -/
def execPunpckldqMm (p : RexPfx) (d : MmReg) (src : RM MmReg) (s : State) : Host.Outcome State Fault Refusal :=
  execMmx interleaveDwords64 p d src s

end Sys2Proof.Machine
end

