-- ==== Sys2Proof/Machine/Sse.lean ====
section
/-! DEFINITION. The 128-bit legacy SSE forms (spec/42_sse_128bit.md). -/

namespace Sys2Proof.Machine

/-- `ExecSSE(w)` (R120), with the interleave function of the element width: a memory operand is 16-byte aligned, and bits 255:128 of
the destination are unchanged. -/
def execSse (f : BitVec 128 → BitVec 128 → BitVec 128) (p : RexPfx) (d : VReg) (src : RM VReg) (s : State) :
    Host.Outcome State Fault Refusal :=
  complete (preChecksSse s.env) (readXmmM128 s (xmmLen p src) 16 src)
    (fun v => (s.writeXmmKeepUpper d (f (s.readXmm d) v)).advance (xmmLen p src)) s

/-- `PUNPCKLBW xmm1, xmm2/m128` (R121). -/
def execPunpcklbwXmm (p : RexPfx) (d : VReg) (src : RM VReg) (s : State) : Host.Outcome State Fault Refusal :=
  execSse interleaveBytes p d src s

/-- `PUNPCKLWD xmm1, xmm2/m128` (R122). -/
def execPunpcklwdXmm (p : RexPfx) (d : VReg) (src : RM VReg) (s : State) : Host.Outcome State Fault Refusal :=
  execSse interleaveWords p d src s

/-- `PUNPCKLDQ xmm1, xmm2/m128` (R123). -/
def execPunpckldqXmm (p : RexPfx) (d : VReg) (src : RM VReg) (s : State) : Host.Outcome State Fault Refusal :=
  execSse interleaveDwords p d src s

/-- `PUNPCKLQDQ xmm1, xmm2/m128` (R124). -/
def execPunpcklqdqXmm (p : RexPfx) (d : VReg) (src : RM VReg) (s : State) : Host.Outcome State Fault Refusal :=
  execSse interleaveQwords p d src s

end Sys2Proof.Machine
end

