-- ==== Sys2Proof/Machine/Vex128.lean ====
section
/-! DEFINITION. The VEX.128 forms (spec/43_vex_128bit.md). -/

namespace Sys2Proof.Machine

/-- `ExecVEX128(w)` (R130), with the interleave function of the element width: bits 255:128 of the destination become zero. -/
def execVex128 (f : BitVec 128 → BitVec 128 → BitVec 128) (p : VexPfx) (d s1 : VReg) (src : RM VReg) (s : State) :
    Host.Outcome State Fault Refusal :=
  complete (preChecksVex s.env s.env.cpuidAVX) (readXmmM128 s (vexLen p src) (vexM128Align s.env) src)
    (fun v => (s.writeXmmZeroUpper d (f (s.readXmm s1) v)).advance (vexLen p src)) s

/-- `VPUNPCKLBW xmm1, xmm2, xmm3/m128` (R131). -/
def execVpunpcklbwXmm (p : VexPfx) (d s1 : VReg) (src : RM VReg) (s : State) : Host.Outcome State Fault Refusal :=
  execVex128 interleaveBytes p d s1 src s

/-- `VPUNPCKLWD xmm1, xmm2, xmm3/m128` (R132). -/
def execVpunpcklwdXmm (p : VexPfx) (d s1 : VReg) (src : RM VReg) (s : State) : Host.Outcome State Fault Refusal :=
  execVex128 interleaveWords p d s1 src s

/-- `VPUNPCKLDQ xmm1, xmm2, xmm3/m128` (R133). -/
def execVpunpckldqXmm (p : VexPfx) (d s1 : VReg) (src : RM VReg) (s : State) : Host.Outcome State Fault Refusal :=
  execVex128 interleaveDwords p d s1 src s

/-- `VPUNPCKLQDQ xmm1, xmm2, xmm3/m128` (R134). -/
def execVpunpcklqdqXmm (p : VexPfx) (d s1 : VReg) (src : RM VReg) (s : State) : Host.Outcome State Fault Refusal :=
  execVex128 interleaveQwords p d s1 src s

end Sys2Proof.Machine
end

