-- ==== Sys2Proof/Machine/Vex256.lean ====
section
/-! DEFINITION. The VEX.256 forms (spec/44_vex_256bit.md). -/

namespace Sys2Proof.Machine

/-- `ExecVEX256(w)` (R140), with the interleave function of the element width. Without AVX2 the pre-checks raise `#UD`, which is the
page's "#UD If VEX.L = 1." (R74(a), R151; log 27). -/
def execVex256 (f : BitVec 256 → BitVec 256 → BitVec 256) (p : VexPfx) (d s1 : VReg) (src : RM VReg) (s : State) :
    Host.Outcome State Fault Refusal :=
  complete (preChecksVex s.env s.env.cpuidAVX2) (readYmmM256 s (vexLen p src) src)
    (fun v => (s.writeYmm d (f (s.readYmm s1) v)).advance (vexLen p src)) s

/-- `VPUNPCKLBW ymm1, ymm2, ymm3/m256` (R141). -/
def execVpunpcklbwYmm (p : VexPfx) (d s1 : VReg) (src : RM VReg) (s : State) : Host.Outcome State Fault Refusal :=
  execVex256 interleaveBytes256 p d s1 src s

/-- `VPUNPCKLWD ymm1, ymm2, ymm3/m256` (R142). -/
def execVpunpcklwdYmm (p : VexPfx) (d s1 : VReg) (src : RM VReg) (s : State) : Host.Outcome State Fault Refusal :=
  execVex256 interleaveWords256 p d s1 src s

/-- `VPUNPCKLDQ ymm1, ymm2, ymm3/m256` (R143). -/
def execVpunpckldqYmm (p : VexPfx) (d s1 : VReg) (src : RM VReg) (s : State) : Host.Outcome State Fault Refusal :=
  execVex256 interleaveDwords256 p d s1 src s

/-- `VPUNPCKLQDQ ymm1, ymm2, ymm3/m256` (R144). -/
def execVpunpcklqdqYmm (p : VexPfx) (d s1 : VReg) (src : RM VReg) (s : State) : Host.Outcome State Fault Refusal :=
  execVex256 interleaveQwords256 p d s1 src s

end Sys2Proof.Machine
end

