-- ==== Sys2Proof/Machine/Dispatch.lean ====
section
/-! DEFINITION. One arm for each instruction: its meaning. -/

namespace Sys2Proof.Machine

def exec (i : Instr) (s : State) : Host.Outcome State Fault Refusal :=
  match i with
  | .punpcklbwMm p d src => Sys2Proof.Machine.execPunpcklbwMm p d src s
  | .punpcklwdMm p d src => Sys2Proof.Machine.execPunpcklwdMm p d src s
  | .punpckldqMm p d src => Sys2Proof.Machine.execPunpckldqMm p d src s
  | .punpcklbwXmm p d src => Sys2Proof.Machine.execPunpcklbwXmm p d src s
  | .punpcklwdXmm p d src => Sys2Proof.Machine.execPunpcklwdXmm p d src s
  | .punpckldqXmm p d src => Sys2Proof.Machine.execPunpckldqXmm p d src s
  | .punpcklqdqXmm p d src => Sys2Proof.Machine.execPunpcklqdqXmm p d src s
  | .vpunpcklbwXmm p d s1 src => Sys2Proof.Machine.execVpunpcklbwXmm p d s1 src s
  | .vpunpcklwdXmm p d s1 src => Sys2Proof.Machine.execVpunpcklwdXmm p d s1 src s
  | .vpunpckldqXmm p d s1 src => Sys2Proof.Machine.execVpunpckldqXmm p d s1 src s
  | .vpunpcklqdqXmm p d s1 src => Sys2Proof.Machine.execVpunpcklqdqXmm p d s1 src s
  | .vpunpcklbwYmm p d s1 src => Sys2Proof.Machine.execVpunpcklbwYmm p d s1 src s
  | .vpunpcklwdYmm p d s1 src => Sys2Proof.Machine.execVpunpcklwdYmm p d s1 src s
  | .vpunpckldqYmm p d s1 src => Sys2Proof.Machine.execVpunpckldqYmm p d s1 src s
  | .vpunpcklqdqYmm p d s1 src => Sys2Proof.Machine.execVpunpcklqdqYmm p d s1 src s

end Sys2Proof.Machine
end

