-- ==== Sys2Proof/Machine/Fetch.lean ====
section
/-! DEFINITION. Fetching from the program and placing a program (spec/70_reset_and_hazards.md R182, R184). The program is not in
memory, and fetching it cannot fault (spec/20_memory.md R53, D10; log 28). -/

namespace Sys2Proof.Machine

/-- The program's bytes lie wholly below the top of the address space, so that pc never wraps (R24, R182; log 10). -/
def launchOk (s : State) : Bool := decide (s.base.toNat + s.program.length ≤ addrTop s.env.mode)

/-- How far pc is past the program's base, in the width of the mode. -/
def pcOffset (s : State) : Nat := (truncAddr s.env.mode (s.pc - s.base)).toNat

/-- What stands at pc: the decoder's answer on the program bytes from pc on, or why nothing is decoded there: the program does not
fit (R182), the run is over (R184), or pc is outside the program (log 10). -/
def fetch (s : State) : Except Refusal Decoded :=
  if !launchOk s then .error .programPastTop
  else if pcOffset s = s.program.length then .error .endOfRun
  else if s.program.length < pcOffset s then .error .pcOutsideProgram
  else .ok (decode s.env.mode (s.program.drop (pcOffset s)))

/-- A launch (R182): the program placed at pc. Nothing else changes. -/
def State.placeProgram (s : State) (bytes : List Byte) : State := { s with base := s.pc, program := bytes }

end Sys2Proof.Machine
end

