-- ==== Sys2Proof/Machine/Step.lean ====
section
/-! DEFINITION. One step of the machine (spec/00_scope.md R11): fetch, decode, execute. -/

namespace Sys2Proof.Machine

/-- One step: the instruction at pc runs; a decode-time `#UD` is raised (R74(c)); anything else is refused by name (R79, R184). -/
def step (s : State) : Host.Outcome State Fault Refusal :=
  match fetch s with
  | .error r => .refused r
  | .ok (.instr i) => exec i s
  | .ok .ud => raise .ud s
  | .ok (.refused r) => .refused (.notDecoded r)

/-- The state with a program placed at pc that is the instruction of a word of the opcode table (log 3, log 25). -/
def State.withFetchWord (s : State) (nbits w : Nat) : State := s.placeProgram (tableBytes nbits w)

end Sys2Proof.Machine
end

