-- ==== Sys2Proof/Safety.lean ====
section
/-! DEFINITION. The terms the statements use: the invariant of a run, when a form may run (spec/70_reset_and_hazards.md R183), what
its source operand holds, and what an instruction leaves unchanged. -/

namespace Sys2Proof.Machine

/-! ### The invariant -/

/-- The invariant of a run: memory has its canonical form, the program lies below the top of the address space (R182), pc is in the
program or at its end (R184), in Mode32 pc is 32 bits wide (R24), and the vector registers are those the mode has (R22). -/
abbrev Inv (s : State) : Prop :=
  s.mem.wf = true ∧ launchOk s = true ∧ pcOffset s ≤ s.program.length ∧ (s.env.mode = .mode32 → s.pc.toNat < 2 ^ 32) ∧
    s.ymm.size = vregCount s.env.mode

/-! ### The forms -/

/-- The four families of R2. -/
inductive Form where
  | mmx
  | sse
  | vex128
  | vex256
deriving DecidableEq, Repr

/-- The family of an instruction (R2, R72). -/
def formOf : Instr → Form
  | .punpcklbwMm _ _ _ => .mmx
  | .punpcklwdMm _ _ _ => .mmx
  | .punpckldqMm _ _ _ => .mmx
  | .punpcklbwXmm _ _ _ => .sse
  | .punpcklwdXmm _ _ _ => .sse
  | .punpckldqXmm _ _ _ => .sse
  | .punpcklqdqXmm _ _ _ => .sse
  | .vpunpcklbwXmm _ _ _ _ => .vex128
  | .vpunpcklwdXmm _ _ _ _ => .vex128
  | .vpunpckldqXmm _ _ _ _ => .vex128
  | .vpunpcklqdqXmm _ _ _ _ => .vex128
  | .vpunpcklbwYmm _ _ _ _ => .vex256
  | .vpunpcklwdYmm _ _ _ _ => .vex256
  | .vpunpckldqYmm _ _ _ _ => .vex256
  | .vpunpcklqdqYmm _ _ _ _ => .vex256

/-- The memory operand of a register-or-memory operand, if it is one. -/
def RM.memOp {ρ : Type} : RM ρ → Option MemOp
  | .reg _ => none
  | .mem m => some m

/-- The memory operand of an instruction; `none` for a register form (R40, R64). -/
def memOpOf : Instr → Option MemOp
  | .punpcklbwMm _ _ src => RM.memOp src
  | .punpcklwdMm _ _ src => RM.memOp src
  | .punpckldqMm _ _ src => RM.memOp src
  | .punpcklbwXmm _ _ src => RM.memOp src
  | .punpcklwdXmm _ _ src => RM.memOp src
  | .punpckldqXmm _ _ src => RM.memOp src
  | .punpcklqdqXmm _ _ src => RM.memOp src
  | .vpunpcklbwXmm _ _ _ src => RM.memOp src
  | .vpunpcklwdXmm _ _ _ src => RM.memOp src
  | .vpunpckldqXmm _ _ _ src => RM.memOp src
  | .vpunpcklqdqXmm _ _ _ src => RM.memOp src
  | .vpunpcklbwYmm _ _ _ src => RM.memOp src
  | .vpunpcklwdYmm _ _ _ src => RM.memOp src
  | .vpunpckldqYmm _ _ _ src => RM.memOp src
  | .vpunpcklqdqYmm _ _ _ src => RM.memOp src

/-- The vector register of a register-or-memory operand, if it is one. -/
def RM.vregs : RM VReg → List VReg
  | .reg r => [r]
  | .mem _ => []

/-- The vector registers an instruction names (R70, R71). -/
def vregsOf : Instr → List VReg
  | .punpcklbwMm _ _ _ => []
  | .punpcklwdMm _ _ _ => []
  | .punpckldqMm _ _ _ => []
  | .punpcklbwXmm _ d src => d :: RM.vregs src
  | .punpcklwdXmm _ d src => d :: RM.vregs src
  | .punpckldqXmm _ d src => d :: RM.vregs src
  | .punpcklqdqXmm _ d src => d :: RM.vregs src
  | .vpunpcklbwXmm _ d s1 src => d :: s1 :: RM.vregs src
  | .vpunpcklwdXmm _ d s1 src => d :: s1 :: RM.vregs src
  | .vpunpckldqXmm _ d s1 src => d :: s1 :: RM.vregs src
  | .vpunpcklqdqXmm _ d s1 src => d :: s1 :: RM.vregs src
  | .vpunpcklbwYmm _ d s1 src => d :: s1 :: RM.vregs src
  | .vpunpcklwdYmm _ d s1 src => d :: s1 :: RM.vregs src
  | .vpunpckldqYmm _ d s1 src => d :: s1 :: RM.vregs src
  | .vpunpcklqdqYmm _ d s1 src => d :: s1 :: RM.vregs src

/-- The state has every vector register the instruction names (R22). -/
abbrev RegistersExist (s : State) (i : Instr) : Prop := ∀ r ∈ vregsOf i, s.hasYmm r = true

/-- The bytes of a memory operand, by family (R43). -/
def operandBytes : Form → Nat
  | .mmx => 4
  | .sse => 16
  | .vex128 => 16
  | .vex256 => 32

/-! ### When a form may run -/

/-- R183: what an MMX form needs of `Env`. -/
abbrev MmxReady (env : Env) : Prop :=
  env.cpuidMMX = true ∧ env.cr0EM = false ∧ env.cr0TS = false ∧ env.x87ExceptionPending = false

/-- R183: what a 128-bit legacy SSE form needs of `Env`. -/
abbrev SseReady (env : Env) : Prop :=
  env.cpuidSSE2 = true ∧ env.cr0EM = false ∧ env.cr4OSFXSR = true ∧ env.cr0TS = false

/-- R183: what every VEX form needs of `Env` besides its CPUID feature flag. -/
abbrev VexReady (env : Env) : Prop :=
  env.cr4OSXSAVE = true ∧ env.xcr0SSE = true ∧ env.xcr0AVX = true ∧ env.cr0TS = false

/-- R183: what a form of each family needs of `Env`. -/
def FormReady (env : Env) : Form → Prop
  | .mmx => MmxReady env
  | .sse => SseReady env
  | .vex128 => VexReady env ∧ env.cpuidAVX = true
  | .vex256 => VexReady env ∧ env.cpuidAVX2 = true

/-! ### Source operands -/

/-- A memory operand of `n` bytes may be read, at linear address `la`: the segment answers `la`, the page check allows it (R47). -/
abbrev Reachable (s : State) (len : Nat) (m : MemOp) (n : Nat) (la : Addr) : Prop :=
  s.access.segment s.env (effAddr s len m).1 (effAddr s len m).2 n = .linear la ∧ s.access.page s.env la n = .ok

/-- The value `v` of `mm/m32`: bits 31:0 of the register, or 4 bytes that may be read, 4-byte aligned if alignment checking is in
force (R43, R46, R110). -/
def MmSource (s : State) (len : Nat) : RM MmReg → BitVec 32 → Prop
  | .reg r, v => v = (s.readMm r).extractLsb' 0 32
  | .mem m, v => ∃ la, Reachable s len m 4 la ∧ (s.env.acEnabled = true → la.toNat % 4 = 0) ∧
      v = memRead s.env.mode s.mem la 4

/-- The value `v` of `xmm2/m128` of a legacy SSE form: bits 127:0 of the register, or 16 bytes that may be read, 16-byte aligned
(R43, R45, R120). -/
def SseSource (s : State) (len : Nat) : RM VReg → BitVec 128 → Prop
  | .reg r, v => v = s.readXmm r
  | .mem m, v => ∃ la, Reachable s len m 16 la ∧ la.toNat % 16 = 0 ∧ v = memRead s.env.mode s.mem la 16

/-- The value `v` of `xmm3/m128` of a VEX.128 form: as for a legacy form, but aligned only if the parameter of R46 says so
(R43, R46, R130). -/
def Vex128Source (s : State) (len : Nat) : RM VReg → BitVec 128 → Prop
  | .reg r, v => v = s.readXmm r
  | .mem m, v => ∃ la, Reachable s len m 16 la ∧ (s.env.vexM128AlignmentEnforced = true → la.toNat % 16 = 0) ∧
      v = memRead s.env.mode s.mem la 16

/-- The value `v` of `ymm3/m256`: the register, or 32 bytes that may be read, at any alignment (R43, R46, R140). -/
def Vex256Source (s : State) (len : Nat) : RM VReg → BitVec 256 → Prop
  | .reg r, v => v = s.readYmm r
  | .mem m, v => ∃ la, Reachable s len m 32 la ∧ v = memRead s.env.mode s.mem la 32

/-! ### Results and frames -/

/-- From bit `lane` on, the elements of `w` bits of `r` alternate between those of `a` and those of `b`, for `count` pairs: element `2i`
is element `i` of `a`, element `2i + 1` is element `i` of `b`, counted from bit `lane` in all three (R100). -/
def Alternates {k n m : Nat} (w lane count : Nat) (r : BitVec k) (a : BitVec n) (b : BitVec m) : Prop :=
  ∀ i, i < count →
    r.extractLsb' (lane + 2 * w * i) w = a.extractLsb' (lane + w * i) w ∧
    r.extractLsb' (lane + 2 * w * i + w) w = b.extractLsb' (lane + w * i) w

/-- The parameters of R31 are the same in both states. -/
abbrev SameParameters (s t : State) : Prop :=
  t.env = s.env ∧ t.base = s.base ∧ t.program = s.program ∧ t.alloc = s.alloc ∧ t.segAnswers = s.segAnswers ∧
    t.pageAnswers = s.pageAnswers

/-- Of registers, memory and parameters only `MM[d]` may differ (R110: "Nothing else is written"). pc is said apart. -/
def OnlyMm (d : MmReg) (s t : State) : Prop :=
  (∀ r, r ≠ d → t.readMm r = s.readMm r) ∧ t.ymm = s.ymm ∧ (∀ r, t.readGpr r = s.readGpr r) ∧
    (∀ a, t.readByte a = s.readByte a) ∧ SameParameters s t

/-- Of registers, memory and parameters only `YMM[d]` may differ (R120, R130, R140: "Nothing else is written"). pc is said apart. -/
def OnlyYmm (d : VReg) (s t : State) : Prop :=
  (∀ r, r ≠ d → t.readYmm r = s.readYmm r) ∧ (∀ r, t.hasYmm r = s.hasYmm r) ∧ (∀ r, t.readMm r = s.readMm r) ∧ (∀ r, t.readGpr r = s.readGpr r) ∧
    (∀ a, t.readByte a = s.readByte a) ∧ SameParameters s t

/-- Only the instruction's destination register may differ, pc apart. -/
def OnlyDestination (i : Instr) (s t : State) : Prop :=
  match i with
  | .punpcklbwMm _ d _ => OnlyMm d s t
  | .punpcklwdMm _ d _ => OnlyMm d s t
  | .punpckldqMm _ d _ => OnlyMm d s t
  | .punpcklbwXmm _ d _ => OnlyYmm d s t
  | .punpcklwdXmm _ d _ => OnlyYmm d s t
  | .punpckldqXmm _ d _ => OnlyYmm d s t
  | .punpcklqdqXmm _ d _ => OnlyYmm d s t
  | .vpunpcklbwXmm _ d _ _ => OnlyYmm d s t
  | .vpunpcklwdXmm _ d _ _ => OnlyYmm d s t
  | .vpunpckldqXmm _ d _ _ => OnlyYmm d s t
  | .vpunpcklqdqXmm _ d _ _ => OnlyYmm d s t
  | .vpunpcklbwYmm _ d _ _ => OnlyYmm d s t
  | .vpunpcklwdYmm _ d _ _ => OnlyYmm d s t
  | .vpunpckldqYmm _ d _ _ => OnlyYmm d s t
  | .vpunpcklqdqYmm _ d _ _ => OnlyYmm d s t

/-- The bytes of a memory operand the result depends on, by family (last column of R43). -/
def usedBytes : Form → List Nat
  | .mmx => List.range 4
  | .sse => List.range 8
  | .vex128 => List.range 8
  | .vex256 => List.range 8 ++ List.range' 16 8

/-! ### Effective addresses as integers -/

/-- A displacement as an integer, sign-extended (R66). -/
def dispInt : Disp → Int
  | .none => 0
  | .d8 v => v.toInt
  | .d32 v => v.toInt

/-- A scaled index as a natural number; index number 4 is no index (R66). -/
def scaledIndex (s : State) (scale : BitVec 2) (i : GReg) : Nat :=
  if i.val = 4 then 0 else (s.readGpr i).toNat * 2 ^ scale.toNat

end Sys2Proof.Machine
end

