-- ==== Sys2Proof/Certificates/Slice0/Obligations.lean ====
section
/-! DEFINITION. The statements for the provers. Each docstring names the rule of spec/ it formalises, or says that it rests on a
choice of the model and names the log entry. -/

open Sys2Proof Sys2Proof.Machine

/-! ### The interleave functions (spec/40_interleave_functions.md) -/

/-- The two equations of R100 for every width and element, and its definition of the 256-bit function by lanes. -/
def Obligations.GeneralFormAlternatesElements : Prop :=
  (∀ w ∈ [8, 16, 32, 64], ∀ a b : BitVec 128, Alternates w 0 (64 / w) (interleave w a b) a b) ∧
  (∀ w ∈ [8, 16, 32], ∀ (a : BitVec 64) (b : BitVec 32), Alternates w 0 (32 / w) (interleave64 w a b) a b) ∧
  (∀ w ∈ [8, 16, 32, 64], ∀ a b : BitVec 256,
    (interleave256 w a b).extractLsb' 0 128 = interleave w (a.extractLsb' 0 128) (b.extractLsb' 0 128) ∧
    (interleave256 w a b).extractLsb' 128 128 = interleave w (a.extractLsb' 128 128) (b.extractLsb' 128 128))

/-- R98: the three 64-bit listings slice by slice, and their equality with `Interleave64`. -/
def Obligations.Listings64AlternateLowElements : Prop :=
  ∀ (d : BitVec 64) (s : BitVec 32),
    (Alternates 8 0 4 (interleaveBytes64 d s) d s ∧ interleaveBytes64 d s = interleave64 8 d s) ∧
    (Alternates 16 0 2 (interleaveWords64 d s) d s ∧ interleaveWords64 d s = interleave64 16 d s) ∧
    (Alternates 32 0 1 (interleaveDwords64 d s) d s ∧ interleaveDwords64 d s = interleave64 32 d s)

/-- R90, R92, R94, R96: the four 128-bit functions slice by slice, and their equality with `Interleave`. -/
def Obligations.Functions128AlternateLowElements : Prop :=
  ∀ a b : BitVec 128,
    (Alternates 8 0 8 (interleaveBytes a b) a b ∧ interleaveBytes a b = interleave 8 a b) ∧
    (Alternates 16 0 4 (interleaveWords a b) a b ∧ interleaveWords a b = interleave 16 a b) ∧
    (Alternates 32 0 2 (interleaveDwords a b) a b ∧ interleaveDwords a b = interleave 32 a b) ∧
    (Alternates 64 0 1 (interleaveQwords a b) a b ∧ interleaveQwords a b = interleave 64 a b)

/-- R91, R93, R95, R97: the four 256-bit functions slice by slice, in both lanes, and their equality with `Interleave256`. -/
def Obligations.Functions256AlternateWithinLanes : Prop :=
  ∀ a b : BitVec 256,
    ((∀ lane ∈ [0, 128], Alternates 8 lane 8 (interleaveBytes256 a b) a b) ∧ interleaveBytes256 a b = interleave256 8 a b) ∧
    ((∀ lane ∈ [0, 128], Alternates 16 lane 4 (interleaveWords256 a b) a b) ∧ interleaveWords256 a b = interleave256 16 a b) ∧
    ((∀ lane ∈ [0, 128], Alternates 32 lane 2 (interleaveDwords256 a b) a b) ∧ interleaveDwords256 a b = interleave256 32 a b) ∧
    ((∀ lane ∈ [0, 128], Alternates 64 lane 1 (interleaveQwords256 a b) a b) ∧ interleaveQwords256 a b = interleave256 64 a b)

/-- R101, which the spec derives from R100: sources that agree in their low-order halves (of each lane) give the same result. -/
def Obligations.HighOrderElementsAreIgnored : Prop :=
  (∀ w ∈ [8, 16, 32, 64], ∀ a b a' b' : BitVec 128, a.extractLsb' 0 64 = a'.extractLsb' 0 64 →
    b.extractLsb' 0 64 = b'.extractLsb' 0 64 → interleave w a b = interleave w a' b') ∧
  (∀ w ∈ [8, 16, 32], ∀ (a a' : BitVec 64) (b : BitVec 32), a.extractLsb' 0 32 = a'.extractLsb' 0 32 →
    interleave64 w a b = interleave64 w a' b) ∧
  (∀ w ∈ [8, 16, 32, 64], ∀ a b a' b' : BitVec 256, a.extractLsb' 0 64 = a'.extractLsb' 0 64 →
    a.extractLsb' 128 64 = a'.extractLsb' 128 64 → b.extractLsb' 0 64 = b'.extractLsb' 0 64 →
    b.extractLsb' 128 64 = b'.extractLsb' 128 64 → interleave256 w a b = interleave256 w a' b')

/-- R102, which the spec derives from R100: a zero second source zero-extends each low-order element to twice its width. -/
def Obligations.ZeroSecondSourceZeroExtends : Prop :=
  (∀ w ∈ [8, 16, 32, 64], ∀ (a : BitVec 128) (i : Nat), i < 64 / w →
    (interleave w a 0#128).extractLsb' (2 * w * i) (2 * w) = (a.extractLsb' (w * i) w).setWidth (2 * w)) ∧
  (∀ w ∈ [8, 16, 32], ∀ (a : BitVec 64) (i : Nat), i < 32 / w →
    (interleave64 w a 0#32).extractLsb' (2 * w * i) (2 * w) = (a.extractLsb' (w * i) w).setWidth (2 * w)) ∧
  (∀ w ∈ [8, 16, 32, 64], ∀ lane ∈ [0, 128], ∀ (a : BitVec 256) (i : Nat), i < 64 / w →
    (interleave256 w a 0#256).extractLsb' (lane + 2 * w * i) (2 * w) = (a.extractLsb' (lane + w * i) w).setWidth (2 * w))

/-- R104(c), which the spec derives from R100: every result of each function comes from exactly one choice of the bits that are
read; for 256 bits these are bits 63:0 and 191:128 of each source, here a source's two lane halves, high then low. -/
def Obligations.InterleaveIsBijective : Prop :=
  (∀ w ∈ [8, 16, 32, 64], ∀ v : BitVec 128,
    ∃! ab : BitVec 64 × BitVec 64, interleave w (ab.1.setWidth 128) (ab.2.setWidth 128) = v) ∧
  (∀ w ∈ [8, 16, 32], ∀ v : BitVec 64, ∃! ab : BitVec 32 × BitVec 32, interleave64 w (ab.1.setWidth 64) ab.2 = v) ∧
  (∀ w ∈ [8, 16, 32, 64], ∀ v : BitVec 256, ∃! ab : (BitVec 64 × BitVec 64) × (BitVec 64 × BitVec 64),
    interleave256 w (joinLanes (ab.1.1.setWidth 128) (ab.1.2.setWidth 128))
      (joinLanes (ab.2.1.setWidth 128) (ab.2.2.setWidth 128)) = v)

/-- R104(a), (b), (d), which the spec derives from R100: equal sources double each element, the quadword interleave keeps the low
quadword, and two zero extensions make doublewords of bytes 0 to 3. -/
def Obligations.InterleaveDoublesAndComposes : Prop :=
  (∀ w ∈ [8, 16, 32, 64], ∀ (a : BitVec 128) (i : Nat), i < 64 / w →
    (interleave w a a).extractLsb' (2 * w * i) w = a.extractLsb' (w * i) w ∧
    (interleave w a a).extractLsb' (2 * w * i + w) w = a.extractLsb' (w * i) w) ∧
  (∀ a b : BitVec 128, (interleave 64 a b).extractLsb' 0 64 = a.extractLsb' 0 64) ∧
  (∀ (a : BitVec 128) (i : Nat), i < 4 →
    (interleave 16 (interleave 8 a 0#128) 0#128).extractLsb' (32 * i) 32 = (a.extractLsb' (8 * i) 8).setWidth 32)

/-! ### Memory (spec/20_memory.md) -/

/-- R42 (the spec's decision D4): byte `k` of the value read is the byte at `la + k`. The sum is taken in the width of a linear
address: the model's choice, log 9. -/
def Obligations.MemReadIsLittleEndian : Prop :=
  ∀ (m : Mode) (mem : Memory) (la : Addr) (n k : Nat), k < n →
    (memRead m mem la n).extractLsb' (8 * k) 8 = mem.read (operandByteAddr m la k)

/-- `MemWrite` is the write that matches `MemRead` (00_scope.md section 4, the primitives of R10): it is read back, and every other
byte stays. The canonical form is the model's (log 5). -/
def Obligations.MemWriteIsReadBack : Prop :=
  ∀ (m : Mode) (mem : Memory) (la : Addr) (n : Nat) (v : BitVec (8 * n)), mem.wf = true → n ≤ 2 ^ 32 →
    memRead m (memWrite m mem la n v) la n = v ∧
    (∀ a, (∀ k, k < n → operandByteAddr m la k ≠ a) → (memWrite m mem la n v).read a = mem.read a)

/-- R47 (the spec's decisions D8, D20), for any `Access`: when `CheckRead` answers an address, and which exception it raises first. -/
def Obligations.CheckReadFollowsItsOrder : Prop :=
  ∀ (A : Access) (env : Env) (seg : Seg) (ea la : Addr) (n align ac : Nat),
    (checkRead A env seg ea n align ac = .ok la ↔
      A.segment env seg ea n = .linear la ∧ (1 < align → la.toNat % align = 0) ∧ A.page env la n = .ok ∧
      (1 < ac → env.acEnabled = true → la.toNat % ac = 0)) ∧
    (A.segment env .ss ea n = .fault → checkRead A env .ss ea n align ac = .error .ss) ∧
    (A.segment env .ds ea n = .fault → checkRead A env .ds ea n align ac = .error .gp) ∧
    (A.segment env seg ea n = .linear la → 1 < align → la.toNat % align ≠ 0 →
      checkRead A env seg ea n align ac = .error .gp) ∧
    (∀ code linear, A.segment env seg ea n = .linear la → (1 < align → la.toNat % align = 0) →
      A.page env la n = .fault code linear → checkRead A env seg ea n align ac = .error (.pf code linear)) ∧
    (A.segment env seg ea n = .linear la → (1 < align → la.toNat % align = 0) → A.page env la n = .ok → 1 < ac →
      env.acEnabled = true → la.toNat % ac ≠ 0 → checkRead A env seg ea n align ac = .error .ac)

/-- The flat instance of R47 (from general knowledge, GK25; log 7): a Mode64 address is canonical when it is below 2^47 or at least
2^64 - 2^47; a Mode32 operand ends at or below FFFFFFFFH; the page check allows exactly the operands whose bytes are all allocated. -/
def Obligations.FlatAccessAnswers : Prop :=
  ∀ (env : Env) (seg : Seg) (ea la : Addr) (alloc : List Region) (n : Nat),
    (env.mode = .mode64 →
      ((ea.toNat < 2 ^ 47 ∨ 2 ^ 64 - 2 ^ 47 ≤ ea.toNat) → flatSegment env seg ea n = .linear ea) ∧
      (¬ (ea.toNat < 2 ^ 47 ∨ 2 ^ 64 - 2 ^ 47 ≤ ea.toNat) → flatSegment env seg ea n = .fault)) ∧
    (env.mode = .mode32 → 0 < n →
      (ea.toNat + n ≤ 2 ^ 32 → flatSegment env seg ea n = .linear ea) ∧
      (2 ^ 32 < ea.toNat + n → flatSegment env seg ea n = .fault)) ∧
    (flatPage alloc env la n = .ok ↔
      ∀ k, k < n → ∃ r ∈ alloc, r.first ≤ operandByteAddr env.mode la k ∧ operandByteAddr env.mode la k < r.first + r.size)

/-! ### Effective addresses (spec/30_encoding.md section 2) -/

/-- R66 (from general knowledge, GK2, GK7, GK24): in Mode64 each shape of memory operand gives its segment and its sum modulo 2^64. -/
def Obligations.EffectiveAddressInMode64 : Prop :=
  ∀ (s : State) (len : Nat), s.env.mode = .mode64 →
    (∀ b d, (effAddr s len (.base b d)).1 = (if b.val = 4 ∨ b.val = 5 then .ss else .ds) ∧
      ((effAddr s len (.base b d)).2.toNat : Int) = ((s.readGpr b).toNat + dispInt d) % 2 ^ 64) ∧
    (∀ v, (effAddr s len (.disp32 v)).1 = .ds ∧
      ((effAddr s len (.disp32 v)).2.toNat : Int) = (s.pc.toNat + len + v.toInt) % 2 ^ 64) ∧
    (∀ sc i b d, (effAddr s len (.sib sc i b d)).1 = (if b.val = 4 ∨ b.val = 5 then .ss else .ds) ∧
      ((effAddr s len (.sib sc i b d)).2.toNat : Int) =
        ((s.readGpr b).toNat + scaledIndex s sc i + dispInt d) % 2 ^ 64) ∧
    (∀ sc i v, (effAddr s len (.sibDisp32 sc i v)).1 = .ds ∧
      ((effAddr s len (.sibDisp32 sc i v)).2.toNat : Int) = (scaledIndex s sc i + v.toInt) % 2 ^ 64)

/-- R67 (from general knowledge, GK2, GK7, GK24): in Mode32 the sums are modulo 2^32 and a bare `disp32` is absolute. -/
def Obligations.EffectiveAddressInMode32 : Prop :=
  ∀ (s : State) (len : Nat), s.env.mode = .mode32 →
    (∀ b d, (effAddr s len (.base b d)).1 = (if b.val = 4 ∨ b.val = 5 then .ss else .ds) ∧
      ((effAddr s len (.base b d)).2.toNat : Int) = ((s.readGpr b).toNat + dispInt d) % 2 ^ 32) ∧
    (∀ v, (effAddr s len (.disp32 v)).1 = .ds ∧ (effAddr s len (.disp32 v)).2.toNat = v.toNat) ∧
    (∀ sc i b d, (effAddr s len (.sib sc i b d)).1 = (if b.val = 4 ∨ b.val = 5 then .ss else .ds) ∧
      ((effAddr s len (.sib sc i b d)).2.toNat : Int) =
        ((s.readGpr b).toNat + scaledIndex s sc i + dispInt d) % 2 ^ 32) ∧
    (∀ sc i v, (effAddr s len (.sibDisp32 sc i v)).1 = .ds ∧
      ((effAddr s len (.sibDisp32 sc i v)).2.toNat : Int) = (scaledIndex s sc i + v.toInt) % 2 ^ 32)

/-! ### Encoding and decoding (spec/30_encoding.md) -/

/-- Words written out from the tables of R61, R63, R64, R68 (its worked encodings) decode to the instructions they stand for. -/
def Obligations.WorkedEncodingsDecode : Prop :=
  decode .mode64 [0x0F#8, 0x60#8, 0xC1#8] = .instr (.punpcklbwMm none 0 (.reg 1)) ∧
  decode .mode64 [0x66#8, 0x44#8, 0x0F#8, 0x6C#8, 0xC1#8] = .instr (.punpcklqdqXmm (some ⟨false, false, false⟩) 8 (.reg 1)) ∧
  decode .mode64 [0xC5#8, 0xE9#8, 0x61#8, 0x4C#8, 0x88#8, 0x08#8] =
    .instr (.vpunpcklwdXmm none 1 2 (.mem (.sib 2#2 1 0 (.d8 0x08#8)))) ∧
  decode .mode64 [0xC5#8, 0xED#8, 0x62#8, 0x1B#8] = .instr (.vpunpckldqYmm none 3 2 (.mem (.base 3 .none))) ∧
  decode .mode64 [0x0F#8, 0x6C#8, 0xC1#8] = .refused .notThisGroup

/-- R60 to R73, R80: decoding the encoding of a well-formed instruction gives it back, in both modes, whatever bytes follow. -/
def Obligations.DecodeOfEncodeIsTheInstruction : Prop :=
  ∀ (m : Mode) (i : Instr) (rest : List Byte), i.wf m = true → decode m (encode i ++ rest) = .instr i

/-- R60 to R73, R80: what decodes is well formed and its bytes are the instruction's encoding, so that no word of the group has two
meanings and no word outside it has one. -/
def Obligations.EncodeOfDecodeIsTheBytes : Prop :=
  ∀ (m : Mode) (bytes : List Byte) (i : Instr), decode m bytes = .instr i →
    i.wf m = true ∧ ∃ rest, bytes = encode i ++ rest

/-- R73 (from general knowledge, GK1, GK2, GK15): a decoded instruction takes 3 to 10 bytes, no more than there are. -/
def Obligations.DecodedLengthWithinBytes : Prop :=
  ∀ (m : Mode) (bytes : List Byte) (i : Instr), decode m bytes = .instr i →
    3 ≤ instrLen i ∧ instrLen i ≤ 10 ∧ instrLen i ≤ bytes.length

/-- R79, R80 (decision D24): every proper beginning of an instruction is refused as truncated. -/
def Obligations.ProperBeginningIsTruncated : Prop :=
  ∀ (m : Mode) (i : Instr) (k : Nat), i.wf m = true → k < instrLen i →
    decode m ((encode i).take k) = .refused .truncated

/-- R74(c), R80 (from general knowledge, GK8): LOCK before any form, and 66H, F2H, F3H or REX before a VEX prefix, are `#UD`. -/
def Obligations.LockAndPrefixedVexAreInvalid : Prop :=
  ∀ (m : Mode) (i : Instr) (rest : List Byte), i.wf m = true →
    decode m (0xF0#8 :: (encode i ++ rest)) = .ud ∧
    (formOf i = .vex128 ∨ formOf i = .vex256 →
      (∀ p ∈ [0x66#8, 0xF2#8, 0xF3#8], decode m (p :: (encode i ++ rest)) = .ud) ∧
      (m = .mode64 → ∀ rex, isRex rex = true → decode m (rex :: (encode i ++ rest)) = .ud))

/-- R79, R80 (decision D18): a segment override or 67H before any form, F2H or F3H before a legacy form, and a second 66H before a
128-bit legacy form are refused by name. -/
def Obligations.UndescribedPrefixesAreRefused : Prop :=
  ∀ (m : Mode) (i : Instr) (rest : List Byte), i.wf m = true →
    (∀ p ∈ [0x26#8, 0x2E#8, 0x36#8, 0x3E#8, 0x64#8, 0x65#8, 0x67#8],
      decode m (p :: (encode i ++ rest)) = .refused .prefixNotAdmitted) ∧
    (formOf i = .mmx ∨ formOf i = .sse →
      ∀ p ∈ [0xF2#8, 0xF3#8], decode m (p :: (encode i ++ rest)) = .refused .prefixNotAdmitted) ∧
    (formOf i = .sse → decode m (0x66#8 :: (encode i ++ rest)) = .refused .prefixNotAdmitted)

/-- R65, R79 (decision D21): REX.R on an MMX form whatever its source is, REX.B on one with a register source, and the reserved bits
of a Mode32 3-byte VEX prefix, are refused by name. The MMX forms with a memory source are those whose operand bytes are all there,
whatever bytes follow. -/
def Obligations.ReservedRegisterBitsAreRefused : Prop :=
  (∀ (rex op modrm : Byte) (rest : List Byte), isRex rex = true → op ∈ [0x60#8, 0x61#8, 0x62#8] →
    modrm.extractLsb' 6 2 = 3#2 → (rex.getLsbD 2 = true ∨ rex.getLsbD 0 = true) →
    decode .mode64 (rex :: 0x0F#8 :: op :: modrm :: rest) = .refused .mmxRegisterExtension) ∧
  (∀ (e : ExtBits) (op : Byte) (d : MmReg) (m : MemOp) (rest : List Byte), op ∈ [0x60#8, 0x61#8, 0x62#8] → m.wf e.x e.b = true →
    decode .mode64 (rexBytes true (some e) ++ 0x0F#8 :: op :: (encodeRM (mmLo d) (.mem m) ++ rest)) =
      .refused .mmxRegisterExtension) ∧
  (∀ (v1 v2 op : Byte) (rest : List Byte), op ∈ [0x60#8, 0x61#8, 0x62#8, 0x6C#8] →
    v1.extractLsb' 6 2 = 3#2 → v1.extractLsb' 0 5 = 1#5 → v2.extractLsb' 0 2 = 1#2 →
    (v1.getLsbD 5 = false ∨ v2.getLsbD 6 = false) →
    decode .mode32 (0xC4#8 :: v1 :: v2 :: op :: rest) = .refused .vex32ReservedBits)

/-- R75 (from general knowledge, GK5): the 3-byte VEX form with W flipped decodes to an instruction that does the same. -/
def Obligations.VexWChangesNothing : Prop :=
  ∀ (m : Mode) (v1 v2 : Byte) (rest : List Byte) (i : Instr), decode m (0xC4#8 :: v1 :: v2 :: rest) = .instr i →
    ∃ j, decode m (0xC4#8 :: v1 :: (v2 ^^^ 0x80#8) :: rest) = .instr j ∧ ∀ s, exec j s = exec i s

/-! ### The forms' results, completion and frames -/

/-- R110 to R113: an MMX form whose requirements hold completes: the four, two or one low elements of the destination and of the
source alternate, pc moves past the instruction, and nothing else changes. -/
def Obligations.MmxFormsComplete : Prop :=
  ∀ (p : RexPfx) (d : MmReg) (src : RM MmReg) (s : State) (v : BitVec 32), MmxReady s.env → MmSource s (mmLen p src) src v →
    (∃ t, exec (.punpcklbwMm p d src) s = .next t ∧ Alternates 8 0 4 (t.readMm d) (s.readMm d) v ∧
      t.pc = nextPc s (mmLen p src) ∧ OnlyMm d s t) ∧
    (∃ t, exec (.punpcklwdMm p d src) s = .next t ∧ Alternates 16 0 2 (t.readMm d) (s.readMm d) v ∧
      t.pc = nextPc s (mmLen p src) ∧ OnlyMm d s t) ∧
    (∃ t, exec (.punpckldqMm p d src) s = .next t ∧ Alternates 32 0 1 (t.readMm d) (s.readMm d) v ∧
      t.pc = nextPc s (mmLen p src) ∧ OnlyMm d s t)

/-- R120 to R124: a 128-bit legacy form whose requirements hold completes: the low elements of the destination and of the source
alternate in bits 127:0, bits 255:128 are unchanged, pc moves past the instruction, and nothing else changes. Its registers are
those the mode has (R22), as `VectorRegistersAreTheModes` says of every decoded instruction. -/
def Obligations.LegacySseFormsComplete : Prop :=
  ∀ (p : RexPfx) (d : VReg) (src : RM VReg) (s : State) (v : BitVec 128), SseReady s.env →
    RegistersExist s (.punpcklbwXmm p d src) → SseSource s (xmmLen p src) src v →
    ∀ c ∈ [(Instr.punpcklbwXmm p d src, 8), (.punpcklwdXmm p d src, 16), (.punpckldqXmm p d src, 32),
        (.punpcklqdqXmm p d src, 64)],
      ∃ t, exec c.1 s = .next t ∧ Alternates c.2 0 (64 / c.2) (t.readXmm d) (s.readXmm d) v ∧
        (t.readYmm d).extractLsb' 128 128 = (s.readYmm d).extractLsb' 128 128 ∧
        t.pc = nextPc s (xmmLen p src) ∧ OnlyYmm d s t

/-- R130 to R134: a VEX.128 form whose requirements hold completes: the low elements of the two sources alternate in bits 127:0, bits
255:128 are zero, pc moves past the instruction, and nothing else changes. Its registers are those the mode has (R22), as above. -/
def Obligations.Vex128FormsComplete : Prop :=
  ∀ (p : VexPfx) (d s1 : VReg) (src : RM VReg) (s : State) (v : BitVec 128), VexReady s.env → s.env.cpuidAVX = true →
    RegistersExist s (.vpunpcklbwXmm p d s1 src) → Vex128Source s (vexLen p src) src v →
    ∀ c ∈ [(Instr.vpunpcklbwXmm p d s1 src, 8), (.vpunpcklwdXmm p d s1 src, 16), (.vpunpckldqXmm p d s1 src, 32),
        (.vpunpcklqdqXmm p d s1 src, 64)],
      ∃ t, exec c.1 s = .next t ∧ Alternates c.2 0 (64 / c.2) (t.readXmm d) (s.readXmm s1) v ∧
        (t.readYmm d).extractLsb' 128 128 = 0#128 ∧ t.pc = nextPc s (vexLen p src) ∧ OnlyYmm d s t

/-- R140 to R144: a VEX.256 form whose requirements hold completes: in each 128-bit lane the low elements of the two sources
alternate, pc moves past the instruction, and nothing else changes. Its registers are those the mode has (R22), as above. -/
def Obligations.Vex256FormsComplete : Prop :=
  ∀ (p : VexPfx) (d s1 : VReg) (src : RM VReg) (s : State) (v : BitVec 256), VexReady s.env → s.env.cpuidAVX2 = true →
    RegistersExist s (.vpunpcklbwYmm p d s1 src) → Vex256Source s (vexLen p src) src v →
    ∀ c ∈ [(Instr.vpunpcklbwYmm p d s1 src, 8), (.vpunpcklwdYmm p d s1 src, 16), (.vpunpckldqYmm p d s1 src, 32),
        (.vpunpcklqdqYmm p d s1 src, 64)],
      ∃ t, exec c.1 s = .next t ∧
        (∀ lane ∈ [0, 128], Alternates c.2 lane (64 / c.2) (t.readYmm d) (s.readYmm s1) v) ∧
        t.pc = nextPc s (vexLen p src) ∧ OnlyYmm d s t

/-- R23, R24, R25, R40, R110, R120, R130, R140: whatever form completes, pc moves by its length and only its destination register
changes. -/
def Obligations.CompletionChangesOnlyDestination : Prop :=
  ∀ (i : Instr) (s t : State), exec i s = .next t → t.pc = nextPc s (instrLen i) ∧ OnlyDestination i s t

/-- R40: a register form makes no data access: with another memory, another allocated set and another `Access` it does the same. -/
def Obligations.RegisterFormsMakeNoDataAccess : Prop :=
  ∀ (i : Instr) (s t : State) (mem : Memory) (alloc : List Region) (segs : List SegRow) (pages : List PageRow),
    memOpOf i = none →
    (exec i s = .next t →
      exec i { s with mem := mem, alloc := alloc, segAnswers := segs, pageAnswers := pages } =
        .next { t with mem := mem, alloc := alloc, segAnswers := segs, pageAnswers := pages }) ∧
    (∀ f, exec i s = .fault f →
      exec i { s with mem := mem, alloc := alloc, segAnswers := segs, pageAnswers := pages } = .fault f)

/-- R43, R44(b) (decision D6): a completing memory form gives the same result from another memory exactly when the operand bytes of
the last column of R43 are the same in it (its registers being those of the mode, R22); and which exception it raises does not depend on memory at all. -/
def Obligations.ResultDependsOnUsedOperandBytes : Prop :=
  ∀ (i : Instr) (s t : State) (m : MemOp) (la : Addr) (mem : Memory), memOpOf i = some m → RegistersExist s i →
    s.access.segment s.env (effAddr s (instrLen i) m).1 (effAddr s (instrLen i) m).2 (operandBytes (formOf i)) = .linear la →
    (exec i s = .next t →
      (exec i { s with mem := mem } = .next { t with mem := mem } ↔
        ∀ k ∈ usedBytes (formOf i),
          mem.read (operandByteAddr s.env.mode la k) = s.mem.read (operandByteAddr s.env.mode la k))) ∧
    (∀ f, exec i s = .fault f → exec i { s with mem := mem } = .fault f)

/-! ### Exceptions (spec/60_exceptions.md) -/

/-- R153 to R157 (from general knowledge, GK8, GK9, GK20): `#UD`, then `#NM`, then for the MMX forms `#MF`, before any operand is
looked at, by the flag and control bits of each family. -/
def Obligations.PreChecksRaiseInOrder : Prop :=
  ∀ (i : Instr) (s : State),
    (formOf i = .mmx →
      (s.env.cpuidMMX = false ∨ s.env.cr0EM = true → exec i s = .fault (.exception .ud s.pc)) ∧
      (s.env.cpuidMMX = true → s.env.cr0EM = false → s.env.cr0TS = true → exec i s = .fault (.exception .nm s.pc)) ∧
      (s.env.cpuidMMX = true → s.env.cr0EM = false → s.env.cr0TS = false → s.env.x87ExceptionPending = true →
        exec i s = .fault (.exception .mf s.pc))) ∧
    (formOf i = .sse →
      (s.env.cpuidSSE2 = false ∨ s.env.cr0EM = true ∨ s.env.cr4OSFXSR = false → exec i s = .fault (.exception .ud s.pc)) ∧
      (s.env.cpuidSSE2 = true → s.env.cr0EM = false → s.env.cr4OSFXSR = true → s.env.cr0TS = true →
        exec i s = .fault (.exception .nm s.pc))) ∧
    (formOf i = .vex128 →
      (s.env.cr4OSXSAVE = false ∨ s.env.xcr0SSE = false ∨ s.env.xcr0AVX = false ∨ s.env.cpuidAVX = false →
        exec i s = .fault (.exception .ud s.pc)) ∧
      (s.env.cr4OSXSAVE = true → s.env.xcr0SSE = true → s.env.xcr0AVX = true → s.env.cpuidAVX = true → s.env.cr0TS = true →
        exec i s = .fault (.exception .nm s.pc))) ∧
    (formOf i = .vex256 →
      (s.env.cr4OSXSAVE = false ∨ s.env.xcr0SSE = false ∨ s.env.xcr0AVX = false ∨ s.env.cpuidAVX2 = false →
        exec i s = .fault (.exception .ud s.pc)) ∧
      (s.env.cr4OSXSAVE = true → s.env.xcr0SSE = true → s.env.xcr0AVX = true → s.env.cpuidAVX2 = true → s.env.cr0TS = true →
        exec i s = .fault (.exception .nm s.pc)))

/-- R183, which the spec derives from R153 to R158: a form raises none of `#UD`, `#NM`, `#MF` exactly when its requirements on `Env`
hold, and then its register forms complete. -/
def Obligations.BootRequirementsSufficeAndAreNeeded : Prop :=
  ∀ (i : Instr) (s : State),
    (FormReady s.env (formOf i) ↔
      ∀ e pc, exec i s = .fault (.exception e pc) → e ≠ .ud ∧ e ≠ .nm ∧ e ≠ .mf) ∧
    (FormReady s.env (formOf i) → memOpOf i = none → ∃ t, exec i s = .next t)

/-- R151 (the spec's decision D3): when the other requirements hold, a VEX.256 form raises `#UD` exactly without AVX2. -/
def Obligations.VexL1IsInvalidExactlyWithoutAvx2 : Prop :=
  ∀ (i : Instr) (s : State), formOf i = .vex256 → VexReady s.env →
    (exec i s = .fault (.exception .ud s.pc) ↔ s.env.cpuidAVX2 = false)

/-- R45 (the exception from general knowledge, GK8): a legacy SSE form faults with `#GP(0)` on an `m128` that is not a multiple of 16,
whatever the page check would answer. That this `#GP(0)` comes before `#PF` is the spec's own choice (R47, R159, decision D20) and no
statement of its source: log 13. -/
def Obligations.LegacySseMisalignmentFaults : Prop :=
  ∀ (i : Instr) (s : State) (m : MemOp) (la : Addr), formOf i = .sse → memOpOf i = some m → SseReady s.env →
    s.access.segment s.env (effAddr s (instrLen i) m).1 (effAddr s (instrLen i) m).2 16 = .linear la → la.toNat % 16 ≠ 0 →
    exec i s = .fault (.exception .gp s.pc)

/-- R46 (decision D7; log 15): a VEX.128 form faults on a misaligned `m128` exactly when the parameter says so; otherwise it completes,
as a VEX.256 form does at any address, even when alignment checking is in force. -/
def Obligations.VexAlignmentFollowsParameter : Prop :=
  ∀ (i : Instr) (s : State) (m : MemOp) (la : Addr), memOpOf i = some m → FormReady s.env (formOf i) →
    Reachable s (instrLen i) m (operandBytes (formOf i)) la → la.toNat % 16 ≠ 0 →
    (formOf i = .vex128 → s.env.vexM128AlignmentEnforced = true → exec i s = .fault (.exception .gp s.pc)) ∧
    (formOf i = .vex128 → s.env.vexM128AlignmentEnforced = false → ∃ t, exec i s = .next t) ∧
    (formOf i = .vex256 → ∃ t, exec i s = .next t)

/-- R46, R160 (from general knowledge, GK9): an MMX form faults with `#AC(0)` on a misaligned `m32` exactly when alignment checking is in
force; otherwise it completes. -/
def Obligations.MmxAlignmentCheck : Prop :=
  ∀ (i : Instr) (s : State) (m : MemOp) (la : Addr), formOf i = .mmx → memOpOf i = some m → MmxReady s.env →
    Reachable s (instrLen i) m 4 la → la.toNat % 4 ≠ 0 →
    (s.env.acEnabled = true → exec i s = .fault (.exception .ac s.pc)) ∧
    (s.env.acEnabled = false → ∃ t, exec i s = .next t)

/-- R44(a), R47, R158 (decision D6): in the flat page check a form faults with `#PF` when any byte of its operand is not allocated,
used or not. That the lowest such byte is reported, and that the code is a free value, are the model's choices (log 8). -/
def Obligations.UnallocatedOperandByteFaults : Prop :=
  ∀ (i : Instr) (s : State) (m : MemOp) (la : Addr) (k : Nat), memOpOf i = some m → FormReady s.env (formOf i) →
    s.pageAnswers = [] →
    s.access.segment s.env (effAddr s (instrLen i) m).1 (effAddr s (instrLen i) m).2 (operandBytes (formOf i)) = .linear la →
    (formOf i = .sse ∨ (formOf i = .vex128 ∧ s.env.vexM128AlignmentEnforced = true) → la.toNat % 16 = 0) →
    k < operandBytes (formOf i) → allocated s.alloc (operandByteAddr s.env.mode la k) = false →
    (∀ j, j < k → allocated s.alloc (operandByteAddr s.env.mode la j) = true) →
    ∃ code, exec i s = .fault (.exception (.pf code (BitVec.ofNat 64 (operandByteAddr s.env.mode la k))) s.pc)

/-- R47, R158 (from general knowledge, GK8, GK25; log 7): in the flat segment check a non-canonical Mode64 address, and a Mode32 operand
that passes FFFFFFFFH, fault with `#SS(0)` in SS and `#GP(0)` in DS. -/
def Obligations.IllegalAddressFaultsBySegment : Prop :=
  ∀ (i : Instr) (s : State) (m : MemOp), memOpOf i = some m → FormReady s.env (formOf i) → s.segAnswers = [] →
    ((s.env.mode = .mode64 ∧ 2 ^ 47 ≤ (effAddr s (instrLen i) m).2.toNat ∧
        (effAddr s (instrLen i) m).2.toNat < 2 ^ 64 - 2 ^ 47) ∨
      (s.env.mode = .mode32 ∧ 2 ^ 32 < (effAddr s (instrLen i) m).2.toNat + operandBytes (formOf i))) →
    ((effAddr s (instrLen i) m).1 = .ss → exec i s = .fault (.exception .ss s.pc)) ∧
    ((effAddr s (instrLen i) m).1 = .ds → exec i s = .fault (.exception .gp s.pc))

/-- R150, the column "raised by" (names from general knowledge, GK10): `#MF` and `#AC` come from MMX forms only, and `#SS`, `#GP`, `#PF`
and `#AC` from memory forms only. -/
def Obligations.ExceptionsComeFromTheirForms : Prop :=
  ∀ (i : Instr) (s : State) (e : Exc) (pc : Addr), exec i s = .fault (.exception e pc) →
    (e = .mf → formOf i = .mmx) ∧ (e = .ac → formOf i = .mmx ∧ memOpOf i ≠ none) ∧
    (e = .ss ∨ e = .gp → memOpOf i ≠ none) ∧ (∀ code la, e = .pf code la → memOpOf i ≠ none)

/-- R150, R161 (from general knowledge, GK10, GK26): a fault of a step is one of the seven exceptions, at the pc of the faulting
instruction, and its record is that exception's row of the table: its own vector, its error code, that pc, and for `#PF` the address. -/
def Obligations.FaultRecordIsOneOfSeven : Prop :=
  ∀ (s : State) (f : Fault), step s = .fault f →
    (f = .exception .ud s.pc ∧ faultRecord f = ⟨6, none, s.pc, none⟩) ∨
    (f = .exception .nm s.pc ∧ faultRecord f = ⟨7, none, s.pc, none⟩) ∨
    (f = .exception .mf s.pc ∧ faultRecord f = ⟨16, none, s.pc, none⟩) ∨
    (f = .exception .ss s.pc ∧ faultRecord f = ⟨12, some 0, s.pc, none⟩) ∨
    (f = .exception .gp s.pc ∧ faultRecord f = ⟨13, some 0, s.pc, none⟩) ∨
    (∃ code la, f = .exception (.pf code la) s.pc ∧ faultRecord f = ⟨14, some code, s.pc, some la⟩) ∨
    (f = .exception .ac s.pc ∧ faultRecord f = ⟨17, some 0, s.pc, none⟩)

/-- R11: a decoded instruction gives a next state or a fault; its meaning never refuses. -/
def Obligations.MeaningsNeverRefuse : Prop :=
  ∀ (i : Instr) (s : State) (r : Refusal), exec i s ≠ .refused r

/-! ### The step and runs -/

/-- R11, R24, R182: where the bytes at pc decode to an instruction, the step is its meaning. Nothing is added around it: the meaning
itself moves pc. -/
def Obligations.StepRunsDecodedInstruction : Prop :=
  ∀ (s : State) (i : Instr), launchOk s = true → pcOffset s < s.program.length →
    decode s.env.mode (s.program.drop (pcOffset s)) = .instr i → step s = exec i s

/-- R11, R74(c), R79, R184: a decode-time `#UD` is raised, a refused shape is refused by its name, and the end of the program is the
end of the run. The refusal that stands for a final state is the model's choice (log 10). -/
def Obligations.StepStopsByName : Prop :=
  ∀ (s : State), launchOk s = true →
    (pcOffset s < s.program.length → decode s.env.mode (s.program.drop (pcOffset s)) = .ud →
      step s = .fault (.exception .ud s.pc)) ∧
    (∀ r, pcOffset s < s.program.length → decode s.env.mode (s.program.drop (pcOffset s)) = .refused r →
      step s = .refused (.notDecoded r)) ∧
    (pcOffset s = s.program.length → step s = .refused .endOfRun)

/-- R23, R24, R29, R31, R40: a step leaves every general register, every byte of memory and every parameter as it was, and changes at
most one MMX or vector register. -/
def Obligations.StepChangesAtMostOneRegister : Prop :=
  ∀ (s t : State), step s = .next t → (∃ d, OnlyMm d s t) ∨ (∃ d, OnlyYmm d s t)

/-- R22, R65 (from general knowledge, GK3, GK4, GK12): in Mode32 there are no vector registers 8 to 15, before a step or after it;
and no Mode32 step writes or reads one, even in a state that the invariant does not admit (there the reads are the model's, log 19). -/
def Obligations.Mode32StepKeepsHighRegisters : Prop :=
  ∀ (s t : State), s.env.mode = .mode32 → step s = .next t →
    (Inv s → ∀ r : VReg, 8 ≤ r.val → s.hasYmm r = false ∧ t.hasYmm r = false) ∧
    (∀ r : VReg, 8 ≤ r.val → t.readYmm r = s.readYmm r) ∧
    (∀ (r : VReg) (v : BitVec 256), 8 ≤ r.val → step (s.writeYmm r v) = .next (t.writeYmm r v))

/-- The invariant is kept by every step, from every state that meets it: memory's canonical form (log 5), the program below the top of
the address space (R24, R182), pc in the program or at its end (R184), a 32-bit pc in Mode32 (R24), and the vector registers of the
mode (R22). -/
def Obligations.StepKeepsTheInvariant : Prop :=
  ∀ (s t : State), Inv s → step s = .next t → Inv t

/-- The state at reset meets the invariant. Its values are the model's choices (log 2 to log 6). -/
def Obligations.ResetMeetsTheInvariant : Prop := Inv State.reset

/-- R184: pc only moves forward by instruction lengths, so a run of `k` steps takes at least `3 * k` bytes of the program. -/
def Obligations.RunsAreBoundedByTheProgram : Prop :=
  ∀ (k : Nat) (s t : State), Host.Core.run Sys2Proof.core k s = .next t →
    pcOffset s + 3 * k ≤ pcOffset t ∧ (0 < k → pcOffset t ≤ s.program.length) ∧ (0 < k → 3 * k ≤ s.program.length)

/-- The values at reset. The spec gives none (R30, R180): all are the model's choices, log 2 (registers), log 3 (pc and program),
log 4 (`Env`), log 5 (memory), log 6 (`Access`). -/
def Obligations.ResetHoldsTheChosenValues : Prop :=
  (∀ r, State.reset.readMm r = 0#64) ∧ (∀ r, State.reset.hasYmm r = true ∧ State.reset.readYmm r = 0#256) ∧ (∀ r, State.reset.readGpr r = 0#64) ∧
  State.reset.pc = 0#64 ∧ State.reset.base = 0#64 ∧ State.reset.program = [] ∧ (∀ a, State.reset.readByte a = unlistedByte) ∧
  (∀ f, FormReady State.reset.env f) ∧ State.reset.env.mode = .mode64 ∧ State.reset.env.acEnabled = false ∧
  State.reset.env.vexM128AlignmentEnforced = false ∧
  (∀ a : Addr, allocated State.reset.alloc a.toNat = true) ∧ State.reset.segAnswers = [] ∧ State.reset.pageAnswers = []

/-- R22, R65 (from general knowledge, GK3, GK4, GK12): under the invariant the state has vector registers 0 to 15 in Mode64 and 0 to 7 in
Mode32, and every instruction that decodes in its mode names only registers it has. -/
def Obligations.VectorRegistersAreTheModes : Prop :=
  ∀ (s : State), Inv s →
    (s.env.mode = .mode64 → ∀ r, s.hasYmm r = true) ∧
    (s.env.mode = .mode32 → ∀ r, s.hasYmm r = true ↔ r.val < 8) ∧
    (∀ bytes i, decode s.env.mode bytes = .instr i → RegistersExist s i)
end

