-- ==== Sys2Proof/Laws/State.lean ====
section
/-! SUPPORT. What each update of the state does to each field, and what a register reads after a write. -/

namespace Sys2Proof.Machine

/-! ### `writeMm` -/

@[simp] theorem writeMm_mm (s : State) (i v) : (s.writeMm i v).mm = s.mm.set i.val v := rfl
@[simp] theorem writeMm_ymm (s : State) (i v) : (s.writeMm i v).ymm = s.ymm := rfl
@[simp] theorem writeMm_gpr (s : State) (i v) : (s.writeMm i v).gpr = s.gpr := rfl
@[simp] theorem writeMm_pc (s : State) (i v) : (s.writeMm i v).pc = s.pc := rfl
@[simp] theorem writeMm_mem (s : State) (i v) : (s.writeMm i v).mem = s.mem := rfl
@[simp] theorem writeMm_env (s : State) (i v) : (s.writeMm i v).env = s.env := rfl
@[simp] theorem writeMm_base (s : State) (i v) : (s.writeMm i v).base = s.base := rfl
@[simp] theorem writeMm_program (s : State) (i v) : (s.writeMm i v).program = s.program := rfl
@[simp] theorem writeMm_alloc (s : State) (i v) : (s.writeMm i v).alloc = s.alloc := rfl
@[simp] theorem writeMm_segAnswers (s : State) (i v) : (s.writeMm i v).segAnswers = s.segAnswers := rfl
@[simp] theorem writeMm_pageAnswers (s : State) (i v) : (s.writeMm i v).pageAnswers = s.pageAnswers := rfl

/-! ### `writeYmm` -/

@[simp] theorem writeYmm_mm (s : State) (i v) : (s.writeYmm i v).mm = s.mm := rfl
@[simp] theorem writeYmm_ymm (s : State) (i v) : (s.writeYmm i v).ymm = s.ymm.write i v := rfl
@[simp] theorem writeYmm_gpr (s : State) (i v) : (s.writeYmm i v).gpr = s.gpr := rfl
@[simp] theorem writeYmm_pc (s : State) (i v) : (s.writeYmm i v).pc = s.pc := rfl
@[simp] theorem writeYmm_mem (s : State) (i v) : (s.writeYmm i v).mem = s.mem := rfl
@[simp] theorem writeYmm_env (s : State) (i v) : (s.writeYmm i v).env = s.env := rfl
@[simp] theorem writeYmm_base (s : State) (i v) : (s.writeYmm i v).base = s.base := rfl
@[simp] theorem writeYmm_program (s : State) (i v) : (s.writeYmm i v).program = s.program := rfl
@[simp] theorem writeYmm_alloc (s : State) (i v) : (s.writeYmm i v).alloc = s.alloc := rfl
@[simp] theorem writeYmm_segAnswers (s : State) (i v) : (s.writeYmm i v).segAnswers = s.segAnswers := rfl
@[simp] theorem writeYmm_pageAnswers (s : State) (i v) : (s.writeYmm i v).pageAnswers = s.pageAnswers := rfl

/-! ### `advance` -/

@[simp] theorem advance_mm (s : State) (n) : (s.advance n).mm = s.mm := rfl
@[simp] theorem advance_ymm (s : State) (n) : (s.advance n).ymm = s.ymm := rfl
@[simp] theorem advance_gpr (s : State) (n) : (s.advance n).gpr = s.gpr := rfl
@[simp] theorem advance_pc (s : State) (n) : (s.advance n).pc = nextPc s n := rfl
@[simp] theorem advance_mem (s : State) (n) : (s.advance n).mem = s.mem := rfl
@[simp] theorem advance_env (s : State) (n) : (s.advance n).env = s.env := rfl
@[simp] theorem advance_base (s : State) (n) : (s.advance n).base = s.base := rfl
@[simp] theorem advance_program (s : State) (n) : (s.advance n).program = s.program := rfl
@[simp] theorem advance_alloc (s : State) (n) : (s.advance n).alloc = s.alloc := rfl
@[simp] theorem advance_segAnswers (s : State) (n) : (s.advance n).segAnswers = s.segAnswers := rfl
@[simp] theorem advance_pageAnswers (s : State) (n) : (s.advance n).pageAnswers = s.pageAnswers := rfl

/-! ### `placeProgram` -/

@[simp] theorem placeProgram_mm (s : State) (b) : (s.placeProgram b).mm = s.mm := rfl
@[simp] theorem placeProgram_ymm (s : State) (b) : (s.placeProgram b).ymm = s.ymm := rfl
@[simp] theorem placeProgram_gpr (s : State) (b) : (s.placeProgram b).gpr = s.gpr := rfl
@[simp] theorem placeProgram_pc (s : State) (b) : (s.placeProgram b).pc = s.pc := rfl
@[simp] theorem placeProgram_mem (s : State) (b) : (s.placeProgram b).mem = s.mem := rfl
@[simp] theorem placeProgram_env (s : State) (b) : (s.placeProgram b).env = s.env := rfl
@[simp] theorem placeProgram_base (s : State) (b) : (s.placeProgram b).base = s.pc := rfl
@[simp] theorem placeProgram_program (s : State) (b) : (s.placeProgram b).program = b := rfl
@[simp] theorem placeProgram_alloc (s : State) (b) : (s.placeProgram b).alloc = s.alloc := rfl
@[simp] theorem placeProgram_segAnswers (s : State) (b) : (s.placeProgram b).segAnswers = s.segAnswers := rfl
@[simp] theorem placeProgram_pageAnswers (s : State) (b) : (s.placeProgram b).pageAnswers = s.pageAnswers := rfl

/-! ### Reads after an update -/

@[simp] theorem readMm_advance (s : State) (n r) : (s.advance n).readMm r = s.readMm r := rfl
@[simp] theorem readYmm_advance (s : State) (n r) : (s.advance n).readYmm r = s.readYmm r := rfl
@[simp] theorem readXmm_advance (s : State) (n r) : (s.advance n).readXmm r = s.readXmm r := rfl
@[simp] theorem readGpr_advance (s : State) (n r) : (s.advance n).readGpr r = s.readGpr r := rfl
@[simp] theorem readByte_advance (s : State) (n a) : (s.advance n).readByte a = s.readByte a := rfl

@[simp] theorem readYmm_writeMm (s : State) (i v r) : (s.writeMm i v).readYmm r = s.readYmm r := rfl
@[simp] theorem readGpr_writeMm (s : State) (i v r) : (s.writeMm i v).readGpr r = s.readGpr r := rfl
@[simp] theorem readByte_writeMm (s : State) (i v a) : (s.writeMm i v).readByte a = s.readByte a := rfl
@[simp] theorem nextPc_writeMm (s : State) (i v n) : nextPc (s.writeMm i v) n = nextPc s n := rfl

@[simp] theorem readMm_writeYmm (s : State) (i v r) : (s.writeYmm i v).readMm r = s.readMm r := rfl
@[simp] theorem readGpr_writeYmm (s : State) (i v r) : (s.writeYmm i v).readGpr r = s.readGpr r := rfl
@[simp] theorem readByte_writeYmm (s : State) (i v a) : (s.writeYmm i v).readByte a = s.readByte a := rfl
@[simp] theorem nextPc_writeYmm (s : State) (i v n) : nextPc (s.writeYmm i v) n = nextPc s n := rfl

@[simp] theorem readMm_writeMm_same (s : State) (i v) : (s.writeMm i v).readMm i = v := by
  simp [State.readMm]

theorem readMm_writeMm_other (s : State) {i r : MmReg} (v) (h : r ≠ i) : (s.writeMm i v).readMm r = s.readMm r := by
  have : i.val ≠ r.val := fun e => h (Fin.ext e.symm)
  simp [State.readMm, this]

/-! ### The vector register file (R22) -/

@[simp] theorem size_write (f : YmmFile) (i v) : (f.write i v).size = f.size := by cases f <;> rfl

theorem read_write_same_register {f : YmmFile} {i : VReg} (v) (h : i.val < f.size) : (f.write i v).read i = v := by
  cases f with
  | sixteen r => simp [YmmFile.write, YmmFile.read]
  | eight r =>
    have h8 : i.val < 8 := h
    simp [YmmFile.write, YmmFile.read, h8]

theorem read_write_other_register {f : YmmFile} {i r : VReg} (v) (h : r ≠ i) : (f.write i v).read r = f.read r := by
  have hne : i.val ≠ r.val := fun e => h (Fin.ext e.symm)
  cases f with
  | sixteen a => simp [YmmFile.write, YmmFile.read, hne]
  | eight a => by_cases h8 : r.val < 8 <;> simp [YmmFile.write, YmmFile.read, hne, h8]

/-- Writing a register that the file does not have changes nothing. -/
theorem write_absent_register {f : YmmFile} {i : VReg} (v) (h : ¬ i.val < f.size) : f.write i v = f := by
  cases f with
  | sixteen r => exact absurd i.isLt h
  | eight r =>
    have h8 : 8 ≤ i.val := Nat.le_of_not_lt h
    simp [YmmFile.write, Vector.setIfInBounds_eq_of_size_le h8]

theorem hasYmm_iff {s : State} {i : VReg} : s.hasYmm i = true ↔ i.val < s.ymm.size := decide_eq_true_iff

@[simp] theorem hasYmm_writeYmm (s : State) (i v r) : (s.writeYmm i v).hasYmm r = s.hasYmm r := by simp [State.hasYmm]
@[simp] theorem hasYmm_writeMm (s : State) (i v r) : (s.writeMm i v).hasYmm r = s.hasYmm r := rfl
@[simp] theorem hasYmm_advance (s : State) (n r) : (s.advance n).hasYmm r = s.hasYmm r := rfl

theorem readYmm_writeYmm_same {s : State} {i : VReg} (v) (h : s.hasYmm i = true) : (s.writeYmm i v).readYmm i = v :=
  read_write_same_register v (hasYmm_iff.1 h)

theorem readYmm_writeYmm_other (s : State) {i r : VReg} (v) (h : r ≠ i) : (s.writeYmm i v).readYmm r = s.readYmm r :=
  read_write_other_register v h

end Sys2Proof.Machine
end

