-- ==== Sys2Proof/Laws/Memory.lean ====
section
/-! SUPPORT. The memory keeps its canonical form, and reads see writes. -/

namespace Sys2Proof.Machine

/-- A canonical list from a higher address on is one from a lower address on. -/
theorem wfFrom_mono {mem : Memory} {lo lo' : Nat} (h : mem.wfFrom lo = true) (hl : lo' ≤ lo) : mem.wfFrom lo' = true := by
  cases mem with
  | nil => rfl
  | cons c rest =>
    obtain ⟨a, v⟩ := c
    simp only [Memory.wfFrom, Bool.and_eq_true, decide_eq_true_eq] at h ⊢
    exact ⟨⟨⟨by omega, h.1.1.2⟩, h.1.2⟩, h.2⟩

/-- An address below every listed one reads as unlisted. -/
theorem read_below {mem : Memory} {lo a : Nat} (h : mem.wfFrom lo = true) (ha : a < lo) : mem.read a = unlistedByte := by
  induction mem generalizing lo with
  | nil => rfl
  | cons c rest ih =>
    obtain ⟨b, v⟩ := c
    simp only [Memory.wfFrom, Bool.and_eq_true, decide_eq_true_eq] at h
    have hb : b ≠ a := by omega
    rw [Memory.read, if_neg hb]
    exact ih h.2 (by omega)

/-- Writing a byte keeps the canonical form, from any lower bound at or below the address. -/
theorem write_keeps_wfFrom {mem : Memory} {lo a : Nat} {v : Byte} (h : mem.wfFrom lo = true) (hl : lo ≤ a) (ha : a < 2 ^ 64) :
    (mem.write a v).wfFrom lo = true := by
  induction mem generalizing lo with
  | nil =>
    by_cases hv : v = unlistedByte
    · simp [Memory.write, Memory.wfFrom, hv]
    · simp [Memory.write, Memory.wfFrom, hv, hl]
      omega
  | cons c rest ih =>
    obtain ⟨b, u⟩ := c
    have h' := h
    simp only [Memory.wfFrom, Bool.and_eq_true, decide_eq_true_eq, bne_iff_ne] at h
    unfold Memory.write
    by_cases h1 : a < b
    · by_cases hv : v = unlistedByte
      · simp [h1, hv, h']
      · have : Memory.wfFrom (a + 1) ((b, u) :: rest) = true := by
          simp only [Memory.wfFrom, Bool.and_eq_true, decide_eq_true_eq, bne_iff_ne]
          exact ⟨⟨⟨by omega, h.1.1.2⟩, h.1.2⟩, h.2⟩
        simp only [h1, hv, if_true, if_false, Memory.wfFrom.eq_2 lo, this]
        simp [hl, hv]
        omega
    · by_cases h2 : a = b
      · by_cases hv : v = unlistedByte
        · simpa [h2, hv] using wfFrom_mono h.2 (by omega)
        · simp [h2, hv, Memory.wfFrom, h.1.1.1, h.2]
          omega
      · simp [h1, h2, Memory.wfFrom, h.1.1.1, h.1.2, ih h.2 (by omega)]
        omega

/-- Writing a byte keeps the canonical form. -/
theorem write_keeps_wf {mem : Memory} {a : Nat} {v : Byte} (h : mem.wf = true) (ha : a < 2 ^ 64) : (mem.write a v).wf = true :=
  write_keeps_wfFrom h (Nat.zero_le a) ha

/-- A byte reads as what was written to it. -/
theorem read_write_same {mem : Memory} {lo a : Nat} {v : Byte} (h : mem.wfFrom lo = true) : (mem.write a v).read a = v := by
  induction mem generalizing lo with
  | nil => by_cases hv : v = unlistedByte <;> simp [Memory.write, Memory.read, hv]
  | cons c rest ih =>
    obtain ⟨b, u⟩ := c
    simp only [Memory.wfFrom, Bool.and_eq_true, decide_eq_true_eq] at h
    unfold Memory.write
    by_cases h1 : a < b
    · by_cases hv : v = unlistedByte
      · have hb : b ≠ a := by omega
        simp [h1, hv, Memory.read, hb, read_below h.2 (a := a) (by omega)]
      · simp [h1, hv, Memory.read]
    · by_cases h2 : a = b
      · subst h2
        by_cases hv : v = unlistedByte
        · simp [hv, read_below h.2 (a := a) (by omega)]
        · simp [hv, Memory.read]
      · have hb : b ≠ a := fun e => h2 e.symm
        simp [h1, h2, Memory.read, hb, ih h.2]

/-- A byte that is not written reads as before. -/
theorem read_write_other {mem : Memory} {a b : Nat} {v : Byte} (h : b ≠ a) : (mem.write a v).read b = mem.read b := by
  induction mem with
  | nil => by_cases hv : v = unlistedByte <;> simp [Memory.write, Memory.read, hv, Ne.symm h]
  | cons c rest ih =>
    obtain ⟨k, u⟩ := c
    unfold Memory.write
    by_cases h1 : a < k
    · by_cases hv : v = unlistedByte <;> simp [h1, hv, Memory.read, Ne.symm h]
    · by_cases h2 : a = k
      · subst h2
        by_cases hv : v = unlistedByte <;> simp [hv, Memory.read, Ne.symm h]
      · simp [h1, h2, Memory.read, ih]

/-- `MemWrite` keeps the canonical form. -/
theorem memWrite_keeps_wf {m : Mode} {mem : Memory} {la : Addr} {n : Nat} {v : BitVec (8 * n)} (h : mem.wf = true) :
    (memWrite m mem la n v).wf = true := by
  induction n generalizing mem la with
  | zero => exact h
  | succ n ih => exact ih (write_keeps_wf h (BitVec.isLt _))

/-- The memory at reset has the canonical form. -/
theorem reset_mem_wf : State.reset.mem.wf = true := rfl

end Sys2Proof.Machine
end

