-- ==== Sys2Proof/Laws/Ops.lean ====
section
/-! SUPPORT. What each shared operation can do, said once. -/

namespace Sys2Proof.Machine

/-- A completed instruction passed its checks, read its operand and wrote. -/
theorem complete_next {α : Type} {check : Option Exc} {operand : Except Exc α} {write : α → State} {s t : State} :
    complete check operand write s = .next t ↔ check = none ∧ ∃ v, operand = .ok v ∧ t = write v := by
  cases check with
  | some e => simp [complete, raise]
  | none => cases operand <;> simp [complete, raise, eq_comm]

/-- A faulting instruction raised its check's exception, or its operand's, at its own pc. -/
theorem complete_fault {α : Type} {check : Option Exc} {operand : Except Exc α} {write : α → State} {s : State} {f : Fault} :
    complete check operand write s = .fault f ↔
      ∃ e, f = .exception e s.pc ∧ (check = some e ∨ (check = none ∧ operand = .error e)) := by
  cases check with
  | some e => simp [complete, raise, eq_comm]
  | none => cases operand <;> simp [complete, raise, eq_comm]

/-- No instruction is refused by its meaning. -/
theorem complete_not_refused {α : Type} {check : Option Exc} {operand : Except Exc α} {write : α → State} {s : State} {r : Refusal} :
    complete check operand write s ≠ .refused r := by
  cases check with
  | some e => simp [complete, raise]
  | none => cases operand <;> simp [complete, raise]

/-- The exceptions an access check can raise (R47). -/
theorem checkRead_error {A : Access} {env : Env} {seg : Seg} {ea : Addr} {n align ac : Nat} {e : Exc}
    (h : checkRead A env seg ea n align ac = .error e) :
    (A.segment env seg ea n = .fault ∧ e = segFault seg) ∨
    (∃ la, A.segment env seg ea n = .linear la ∧
      ((1 < align ∧ la.toNat % align ≠ 0 ∧ e = .gp) ∨
       (∃ code linear, A.page env la n = .fault code linear ∧ e = .pf code linear) ∨
       (1 < ac ∧ env.acEnabled = true ∧ la.toNat % ac ≠ 0 ∧ e = .ac))) := by
  unfold checkRead at h
  split at h
  next hs => cases h; exact .inl ⟨hs, rfl⟩
  next la hs =>
    refine .inr ⟨la, hs, ?_⟩
    split at h
    next ha => cases h; exact .inl ⟨ha.1, ha.2, rfl⟩
    next =>
      split at h
      next code linear hp => cases h; exact .inr (.inl ⟨code, linear, hp, rfl⟩)
      next =>
        split at h
        next hc => cases h; exact .inr (.inr ⟨hc.1, hc.2.1, hc.2.2, rfl⟩)
        next => cases h

/-- An operand that was read passed the access check at some linear address. -/
theorem loadOperand_ok {s : State} {len : Nat} {m : MemOp} {n align ac : Nat} {v : BitVec (8 * n)} :
    loadOperand s len m n align ac = .ok v ↔
      ∃ la, checkRead s.access s.env (effAddr s len m).1 (effAddr s len m).2 n align ac = .ok la ∧
        v = memRead s.env.mode s.mem la n := by
  unfold loadOperand
  cases checkRead s.access s.env (effAddr s len m).1 (effAddr s len m).2 n align ac <;> simp [eq_comm]

/-- An operand that was not read raised the access check's exception. -/
theorem loadOperand_error {s : State} {len : Nat} {m : MemOp} {n align ac : Nat} {e : Exc} :
    loadOperand s len m n align ac = .error e ↔
      checkRead s.access s.env (effAddr s len m).1 (effAddr s len m).2 n align ac = .error e := by
  unfold loadOperand
  cases checkRead s.access s.env (effAddr s len m).1 (effAddr s len m).2 n align ac <;> simp

/-- With no table of segment answers, the flat instance answers (R47; log 6). -/
theorem access_segment_flat {s : State} (h : s.segAnswers = []) (env seg ea n) :
    s.access.segment env seg ea n = flatSegment env seg ea n := by
  simp [State.access, h]

/-- With no table of page answers, the flat instance answers (R47; log 6). -/
theorem access_page_flat {s : State} (h : s.pageAnswers = []) (env la n) :
    s.access.page env la n = flatPage s.alloc env la n := by
  simp [State.access, h]

end Sys2Proof.Machine
end

