-- ==== Sys2Proof/Laws/PerInstr.lean ====
section
/-! SUPPORT. Facts of every instruction as syntax, one lemma for each. -/

namespace Sys2Proof.Laws

open Sys2Proof

theorem dispBytes_length (d : Disp) : (dispBytes d).length = dispLen d := by
  cases d <;> rfl

/-- ModRM, SIB and displacement take the bytes R73 counts, whatever the register numbers are. -/
theorem encodeRM_length {ρ : Type} (reg : BitVec 3) (f : ρ → BitVec 3) (rm : RM ρ) :
    (encodeRM reg (rm.map f)).length = rmLen rm := by
  rcases rm with _ | (_ | _ | _ | _)
  all_goals simp [RM.map, encodeRM, rmLen, dispBytes_length, disp32Bytes]
  all_goals omega

theorem rexBytes_length (r : Bool) (p : RexPfx) : (rexBytes r p).length = if p.isSome then 1 else 0 := by
  cases p <;> rfl

theorem vexBytes_length (p : VexPfx) (r : Bool) (s1 : VReg) (l : Bool) :
    (vexBytes p r s1 l).length = if p.isSome then 3 else 2 := by
  cases p <;> rfl

theorem encodeMm_length (o : Opc) (p : RexPfx) (d : MmReg) (src : RM MmReg) : (encodeMm o p d src).length = mmLen p src := by
  simp only [encodeMm, mmLen, List.length_append, List.length_cons, encodeRM_length, rexBytes_length]; omega

theorem encodeXmm_length (o : Opc) (p : RexPfx) (d : VReg) (src : RM VReg) : (encodeXmm o p d src).length = xmmLen p src := by
  simp only [encodeXmm, xmmLen, List.cons_append, List.length_append, List.length_cons, encodeRM_length, rexBytes_length]; omega

theorem encodeVex_length (o : Opc) (l : Bool) (p : VexPfx) (d s1 : VReg) (src : RM VReg) :
    (encodeVex o l p d s1 src).length = vexLen p src := by
  simp only [encodeVex, vexLen, List.length_append, List.length_cons, encodeRM_length, vexBytes_length]; omega

/-- The family: the encoding of an instruction has the length of R73. -/
def EncodeLength.Statement (i : Instr) : Prop := (encode i).length = instrLen i

theorem EncodeLength.punpcklbwMm (p d src) : EncodeLength.Statement (.punpcklbwMm p d src) := encodeMm_length _ p d src
theorem EncodeLength.punpcklwdMm (p d src) : EncodeLength.Statement (.punpcklwdMm p d src) := encodeMm_length _ p d src
theorem EncodeLength.punpckldqMm (p d src) : EncodeLength.Statement (.punpckldqMm p d src) := encodeMm_length _ p d src
theorem EncodeLength.punpcklbwXmm (p d src) : EncodeLength.Statement (.punpcklbwXmm p d src) := encodeXmm_length _ p d src
theorem EncodeLength.punpcklwdXmm (p d src) : EncodeLength.Statement (.punpcklwdXmm p d src) := encodeXmm_length _ p d src
theorem EncodeLength.punpckldqXmm (p d src) : EncodeLength.Statement (.punpckldqXmm p d src) := encodeXmm_length _ p d src
theorem EncodeLength.punpcklqdqXmm (p d src) : EncodeLength.Statement (.punpcklqdqXmm p d src) := encodeXmm_length _ p d src
theorem EncodeLength.vpunpcklbwXmm (p d s1 src) : EncodeLength.Statement (.vpunpcklbwXmm p d s1 src) :=
  encodeVex_length _ _ p d s1 src
theorem EncodeLength.vpunpcklwdXmm (p d s1 src) : EncodeLength.Statement (.vpunpcklwdXmm p d s1 src) :=
  encodeVex_length _ _ p d s1 src
theorem EncodeLength.vpunpckldqXmm (p d s1 src) : EncodeLength.Statement (.vpunpckldqXmm p d s1 src) :=
  encodeVex_length _ _ p d s1 src
theorem EncodeLength.vpunpcklqdqXmm (p d s1 src) : EncodeLength.Statement (.vpunpcklqdqXmm p d s1 src) :=
  encodeVex_length _ _ p d s1 src
theorem EncodeLength.vpunpcklbwYmm (p d s1 src) : EncodeLength.Statement (.vpunpcklbwYmm p d s1 src) :=
  encodeVex_length _ _ p d s1 src
theorem EncodeLength.vpunpcklwdYmm (p d s1 src) : EncodeLength.Statement (.vpunpcklwdYmm p d s1 src) :=
  encodeVex_length _ _ p d s1 src
theorem EncodeLength.vpunpckldqYmm (p d s1 src) : EncodeLength.Statement (.vpunpckldqYmm p d s1 src) :=
  encodeVex_length _ _ p d s1 src
theorem EncodeLength.vpunpcklqdqYmm (p d s1 src) : EncodeLength.Statement (.vpunpcklqdqYmm p d s1 src) :=
  encodeVex_length _ _ p d s1 src

end Sys2Proof.Laws
end

