-- ==== Sys2Proof/Tests/Slice0.lean ====
section
/-! SUPPORT. Tests. Expected values and words come from spec/: the examples of R111 to R144, the worked encodings of 30_encoding.md
section 8, and the vectors of 95_test_vectors.md (cited by their ids). The last section shows, for each statement that has
hypotheses, a state and operands that meet them. -/

namespace Sys2Proof.Tests

open Sys2Proof Sys2Proof.Machine

/-! ### Helpers -/

/-- The state at reset with a program placed at 400000H. -/
def launch (bytes : List Byte) : State := ({ State.reset with pc := 0x400000#64 } : State).placeProgram bytes

/-- The same state in Mode32, with its eight vector registers zero. -/
def inMode32 (s : State) : State :=
  { s with env := { s.env with mode := .mode32 }, ymm := .eight (Vector.replicate 8 0#256) }

/-- The same state with a value in a general register. -/
def withGpr (s : State) (r : GReg) (v : Addr) : State := { s with gpr := s.gpr.set r.val v }

/-- What a step leaves in an MMX register and in pc. -/
def mmAfter (s : State) (r : MmReg) : Option (BitVec 64 × Addr) :=
  match step s with
  | .next t => some (t.readMm r, t.pc)
  | .fault _ => none
  | .refused _ => none

/-- What a step leaves in a vector register and in pc. -/
def ymmAfter (s : State) (r : VReg) : Option (BitVec 256 × Addr) :=
  match step s with
  | .next t => some (t.readYmm r, t.pc)
  | .fault _ => none
  | .refused _ => none

/-- The fault of a step. -/
def faultAfter (s : State) : Option Fault :=
  match step s with
  | .next _ => none
  | .fault f => some f
  | .refused _ => none

/-- The refusal of a step. -/
def refusalAfter (s : State) : Option Refusal :=
  match step s with
  | .next _ => none
  | .fault _ => none
  | .refused r => some r

/-! ### Well-formedness: an ill-formed term for each check -/

theorem test_wf_base_four_needs_sib :
    Instr.wf .mode64 (.punpcklbwMm none 0 (.mem (.base 4 .none))) = false ∧
    Instr.wf .mode64 (.punpcklbwMm (some ⟨false, false, true⟩) 0 (.mem (.base 12 .none))) = false := by decide

theorem test_wf_base_five_needs_displacement :
    Instr.wf .mode64 (.punpcklbwMm none 0 (.mem (.base 5 .none))) = false ∧
    Instr.wf .mode64 (.vpunpckldqYmm none 0 0 (.mem (.sib 0#2 1 5 .none))) = false := by decide

theorem test_wf_base_number_needs_B :
    Instr.wf .mode64 (.punpcklwdXmm none 0 (.mem (.base 9 .none))) = false ∧
    Instr.wf .mode64 (.punpcklwdXmm (some ⟨false, false, true⟩) 0 (.mem (.base 1 .none))) = false := by decide

theorem test_wf_index_number_needs_X :
    Instr.wf .mode64 (.vpunpckldqXmm none 0 0 (.mem (.sib 1#2 9 0 .none))) = false ∧
    Instr.wf .mode64 (.vpunpckldqXmm (some ⟨false, true, false⟩) 0 0 (.mem (.sibDisp32 1#2 1 0#32))) = false := by decide

theorem test_wf_source_register_needs_B :
    Instr.wf .mode64 (.punpckldqXmm none 0 (.reg 9)) = false ∧
    Instr.wf .mode64 (.vpunpcklqdqYmm none 0 0 (.reg 9)) = false := by decide

theorem test_wf_destination_register_needs_rex : Instr.wf .mode64 (.punpcklqdqXmm none 8 (.reg 1)) = false := by decide

theorem test_wf_mmx_source_register_takes_no_B :
    Instr.wf .mode64 (.punpckldqMm (some ⟨false, false, true⟩) 0 (.reg 1)) = false := by decide

theorem test_wf_mode32_has_no_rex : Instr.wf .mode32 (.punpcklwdMm (some ⟨false, false, false⟩) 0 (.reg 1)) = false := by decide

theorem test_wf_mode32_vex_has_no_high_register :
    Instr.wf .mode32 (.vpunpcklbwXmm none 8 0 (.reg 1)) = false ∧
    Instr.wf .mode32 (.vpunpcklwdYmm none 0 8 (.reg 1)) = false ∧
    Instr.wf .mode32 (.vpunpcklbwYmm (some ⟨false, false, true⟩) 0 0 (.reg 9)) = false ∧
    Instr.wf .mode32 (.vpunpcklqdqXmm (some ⟨false, true, false⟩) 0 0 (.reg 1)) = false := by decide

/-! ### Decoding: every constructor, and the refusals -/

/-- R111 to R113, their examples. -/
theorem test_decode_mmx :
    decode .mode64 [0x0F#8, 0x60#8, 0xC1#8] = .instr (.punpcklbwMm none 0 (.reg 1)) ∧
    decode .mode64 [0x0F#8, 0x61#8, 0xC1#8] = .instr (.punpcklwdMm none 0 (.reg 1)) ∧
    decode .mode32 [0x0F#8, 0x62#8, 0xC1#8] = .instr (.punpckldqMm none 0 (.reg 1)) := by decide

/-- R121 to R124, their examples. -/
theorem test_decode_legacy_sse :
    decode .mode64 [0x66#8, 0x0F#8, 0x60#8, 0xC1#8] = .instr (.punpcklbwXmm none 0 (.reg 1)) ∧
    decode .mode64 [0x66#8, 0x0F#8, 0x61#8, 0xC1#8] = .instr (.punpcklwdXmm none 0 (.reg 1)) ∧
    decode .mode64 [0x66#8, 0x0F#8, 0x62#8, 0xC1#8] = .instr (.punpckldqXmm none 0 (.reg 1)) ∧
    decode .mode32 [0x66#8, 0x0F#8, 0x6C#8, 0xC1#8] = .instr (.punpcklqdqXmm none 0 (.reg 1)) := by decide

/-- R131 to R134, their examples. -/
theorem test_decode_vex128 :
    decode .mode64 [0xC5#8, 0xF9#8, 0x60#8, 0xD1#8] = .instr (.vpunpcklbwXmm none 2 0 (.reg 1)) ∧
    decode .mode64 [0xC5#8, 0xF9#8, 0x61#8, 0xD1#8] = .instr (.vpunpcklwdXmm none 2 0 (.reg 1)) ∧
    decode .mode64 [0xC5#8, 0xF9#8, 0x62#8, 0xD1#8] = .instr (.vpunpckldqXmm none 2 0 (.reg 1)) ∧
    decode .mode32 [0xC5#8, 0xF9#8, 0x6C#8, 0xD1#8] = .instr (.vpunpcklqdqXmm none 2 0 (.reg 1)) := by decide

/-- R141 to R144, their examples. -/
theorem test_decode_vex256 :
    decode .mode64 [0xC5#8, 0xFD#8, 0x60#8, 0xD1#8] = .instr (.vpunpcklbwYmm none 2 0 (.reg 1)) ∧
    decode .mode64 [0xC5#8, 0xFD#8, 0x61#8, 0xD1#8] = .instr (.vpunpcklwdYmm none 2 0 (.reg 1)) ∧
    decode .mode64 [0xC5#8, 0xFD#8, 0x62#8, 0xD1#8] = .instr (.vpunpckldqYmm none 2 0 (.reg 1)) ∧
    decode .mode32 [0xC5#8, 0xFD#8, 0x6C#8, 0xD1#8] = .instr (.vpunpcklqdqYmm none 2 0 (.reg 1)) := by decide

/-- V-D4, V-X8, V-X10 (also worked encodings): the register-extension bits. -/
theorem test_decode_extended_registers :
    decode .mode64 [0x66#8, 0x44#8, 0x0F#8, 0x6C#8, 0xC1#8] =
      .instr (.punpcklqdqXmm (some ⟨false, false, false⟩) 8 (.reg 1)) ∧
    decode .mode64 [0xC4#8, 0x41#8, 0x29#8, 0x61#8, 0xCB#8] =
      .instr (.vpunpcklwdXmm (some ⟨false, false, true⟩) 9 10 (.reg 11)) ∧
    decode .mode64 [0xC4#8, 0x41#8, 0x01#8, 0x60#8, 0x01#8] =
      .instr (.vpunpcklbwXmm (some ⟨false, false, true⟩) 8 15 (.mem (.base 9 .none))) := by decide

/-- V-E2, V-E3, V-E5, V-E6, V-E8, V-E11, V-E12: the shapes of a memory operand. -/
theorem test_decode_memory_operands :
    decode .mode64 [0x0F#8, 0x60#8, 0x7D#8, 0x00#8] = .instr (.punpcklbwMm none 7 (.mem (.base 5 (.d8 0x00#8)))) ∧
    decode .mode64 [0x0F#8, 0x60#8, 0x1C#8, 0x24#8] = .instr (.punpcklbwMm none 3 (.mem (.sib 0#2 4 4 .none))) ∧
    decode .mode64 [0x66#8, 0x0F#8, 0x62#8, 0x2D#8, 0x00#8, 0x01#8, 0x00#8, 0x00#8] =
      .instr (.punpckldqXmm none 5 (.mem (.disp32 0x100#32))) ∧
    decode .mode64 [0xC5#8, 0xE9#8, 0x61#8, 0x4C#8, 0x88#8, 0x08#8] =
      .instr (.vpunpcklwdXmm none 1 2 (.mem (.sib 2#2 1 0 (.d8 0x08#8)))) ∧
    decode .mode32 [0x66#8, 0x0F#8, 0x60#8, 0x05#8, 0x00#8, 0x10#8, 0x00#8, 0x00#8] =
      .instr (.punpcklbwXmm none 0 (.mem (.disp32 0x1000#32))) ∧
    decode .mode64 [0x0F#8, 0x60#8, 0x04#8, 0x25#8, 0x00#8, 0x10#8, 0x00#8, 0x00#8] =
      .instr (.punpcklbwMm none 0 (.mem (.sibDisp32 0#2 4 0x1000#32))) ∧
    decode .mode64 [0x66#8, 0x41#8, 0x0F#8, 0x60#8, 0x45#8, 0x00#8] =
      .instr (.punpcklbwXmm (some ⟨false, false, true⟩) 0 (.mem (.base 13 (.d8 0x00#8)))) := by decide

/-- V-D3, V-D5 to V-D7, V-D9, V-D10, V-D12, V-D19, V-D22, V-D24 to V-D26. -/
theorem test_decode_refusals_and_ud :
    decode .mode64 [0x0F#8, 0x6C#8, 0xC1#8] = .refused .notThisGroup ∧
    decode .mode64 [0x44#8, 0x66#8, 0x0F#8, 0x6C#8, 0xC1#8] = .refused .prefixNotAdmitted ∧
    decode .mode32 [0x66#8, 0x44#8, 0x0F#8, 0x6C#8, 0xC1#8] = .refused .notThisGroup ∧
    decode .mode64 [0x44#8, 0x0F#8, 0x60#8, 0xC1#8] = .refused .mmxRegisterExtension ∧
    decode .mode64 [0xF0#8, 0x66#8, 0x0F#8, 0x60#8, 0x00#8] = .ud ∧
    decode .mode64 [0xF3#8, 0x0F#8, 0x60#8, 0xC1#8] = .refused .prefixNotAdmitted ∧
    decode .mode64 [0x66#8, 0x66#8, 0x0F#8, 0x60#8, 0xC1#8] = .refused .prefixNotAdmitted ∧
    decode .mode32 [0xC4#8, 0xC1#8, 0x79#8, 0x60#8, 0xD1#8] = .refused .vex32ReservedBits ∧
    decode .mode64 [0x66#8, 0x0F#8, 0x60#8] = .refused .truncated ∧
    decode .mode64 [0x44#8, 0xC5#8, 0xF9#8, 0x60#8, 0xD1#8] = .ud ∧
    decode .mode64 [0xF0#8, 0x2E#8, 0x0F#8, 0x60#8, 0x00#8] = .refused .prefixNotAdmitted ∧
    decode .mode64 [0xF0#8, 0x44#8, 0x0F#8, 0x60#8, 0xC1#8] = .ud := by decide

/-- The words of rows 1, 7 and 12 of spec/opcode_table.json, as the model lays them out (log 25). -/
theorem test_table_words :
    decodeTableWord 16 0x0F60 = some (.punpcklbwMm none 0 (.mem (.base 0 .none))) ∧
    decodeTableWord 16 0x0F6C = some (.punpcklqdqXmm none 0 (.mem (.base 0 .none))) ∧
    decodeTableWord 32 0xC4E17D60 = some (.vpunpcklbwYmm (some ⟨false, false, false⟩) 0 0 (.mem (.base 0 .none))) := by decide

/-! ### One step of each instruction -/

/-- The start of 95_test_vectors.md section 2.2: `MM[0] = D`, `MM[1] = S`. -/
def mmStart (op modrm : Byte) : State :=
  ((launch [0x0F#8, op, modrm]).writeMm 0 0x8877665544332211#64).writeMm 1 0xFFEEDDCCBBAA9988#64

/-- The start of sections 2.3 to 2.5: `YMM[0] = A2`, and `YMM[1] = B2`, whose low half is `B`. -/
def ymmStart (bytes : List Byte) : State :=
  ((launch bytes).writeYmm 0 0x1F1E1D1C1B1A191817161514131211100F0E0D0C0B0A09080706050403020100#256).writeYmm 1
    0xEFEEEDECEBEAE9E8E7E6E5E4E3E2E1E0FFFEFDFCFBFAF9F8F7F6F5F4F3F2F1F0#256

/-- V-M1. -/
theorem test_step_punpcklbwMm : mmAfter (mmStart 0x60#8 0xC1#8) 0 = some (0xBB44AA3399228811#64, 0x400003#64) := by decide

/-- V-M4: the source is the destination. -/
theorem test_step_punpcklbwMm_same_register :
    mmAfter (mmStart 0x60#8 0xC0#8) 0 = some (0x4444333322221111#64, 0x400003#64) := by decide

/-- V-M2. -/
theorem test_step_punpcklwdMm : mmAfter (mmStart 0x61#8 0xC1#8) 0 = some (0xBBAA443399882211#64, 0x400003#64) := by decide

/-- V-M5. -/
theorem test_step_punpcklwdMm_other_way : mmAfter (mmStart 0x61#8 0xC8#8) 1 = some (0x4433BBAA22119988#64, 0x400003#64) := by
  decide

/-- V-M3. -/
theorem test_step_punpckldqMm : mmAfter (mmStart 0x62#8 0xC1#8) 0 = some (0xBBAA998844332211#64, 0x400003#64) := by decide

/-- V-B3: a memory operand, little-endian. -/
theorem test_step_punpckldqMm_memory :
    mmAfter { withGpr (mmStart 0x62#8 0x00#8) 0 0x1000#64 with mem := memWrite .mode64 [] 0x1000#64 4 0xD4C3B2A1#32 } 0 =
      some (0xD4C3B2A144332211#64, 0x400003#64) := by decide

/-- V-S1: the upper half is kept. -/
theorem test_step_punpcklbwXmm : ymmAfter (ymmStart [0x66#8, 0x0F#8, 0x60#8, 0xC1#8]) 0 =
    some (0x1F1E1D1C1B1A19181716151413121110F707F606F505F404F303F202F101F000#256, 0x400004#64) := by decide

/-- V-S9: a memory operand with a displacement. -/
theorem test_step_punpcklbwXmm_memory :
    ymmAfter { withGpr ((ymmStart [0x66#8, 0x0F#8, 0x60#8, 0x5E#8, 0x10#8]).writeYmm 3
        0x0F0E0D0C0B0A09080706050403020100#256) 6 0x2000#64 with
        mem := memWrite .mode64 [] 0x2010#64 16 0xFFFEFDFCFBFAF9F8F7F6F5F4F3F2F1F0#128 } 3 =
      some (0xF707F606F505F404F303F202F101F000#256, 0x400005#64) := by decide +kernel

/-- V-S2. -/
theorem test_step_punpcklwdXmm : ymmAfter (ymmStart [0x66#8, 0x0F#8, 0x61#8, 0xC1#8]) 0 =
    some (0x1F1E1D1C1B1A19181716151413121110F7F60706F5F40504F3F20302F1F00100#256, 0x400004#64) := by decide

/-- V-S3. -/
theorem test_step_punpckldqXmm : ymmAfter (ymmStart [0x66#8, 0x0F#8, 0x62#8, 0xC1#8]) 0 =
    some (0x1F1E1D1C1B1A19181716151413121110F7F6F5F407060504F3F2F1F003020100#256, 0x400004#64) := by decide

/-- V-S4. -/
theorem test_step_punpcklqdqXmm : ymmAfter (ymmStart [0x66#8, 0x0F#8, 0x6C#8, 0xC1#8]) 0 =
    some (0x1F1E1D1C1B1A19181716151413121110F7F6F5F4F3F2F1F00706050403020100#256, 0x400004#64) := by decide

/-- V-X1. -/
theorem test_step_vpunpcklbwXmm : ymmAfter (ymmStart [0xC5#8, 0xF9#8, 0x60#8, 0xD1#8]) 2 =
    some (0xF707F606F505F404F303F202F101F000#256, 0x400004#64) := by decide

/-- V-X5: the destination's own upper half is zeroed. -/
theorem test_step_vpunpcklbwXmm_zeroes_upper : ymmAfter (ymmStart [0xC5#8, 0xF9#8, 0x60#8, 0xC0#8]) 0 =
    some (0x07070606050504040303020201010000#256, 0x400004#64) := by decide

/-- V-X2. -/
theorem test_step_vpunpcklwdXmm : ymmAfter (ymmStart [0xC5#8, 0xF9#8, 0x61#8, 0xD1#8]) 2 =
    some (0xF7F60706F5F40504F3F20302F1F00100#256, 0x400004#64) := by decide

/-- V-X3. -/
theorem test_step_vpunpckldqXmm : ymmAfter (ymmStart [0xC5#8, 0xF9#8, 0x62#8, 0xD1#8]) 2 =
    some (0xF7F6F5F407060504F3F2F1F003020100#256, 0x400004#64) := by decide

/-- V-X4. -/
theorem test_step_vpunpcklqdqXmm : ymmAfter (ymmStart [0xC5#8, 0xF9#8, 0x6C#8, 0xD1#8]) 2 =
    some (0xF7F6F5F4F3F2F1F00706050403020100#256, 0x400004#64) := by decide

/-- V-X6: the sources the other way round. -/
theorem test_step_vpunpcklqdqXmm_other_way : ymmAfter (ymmStart [0xC5#8, 0xF1#8, 0x6C#8, 0xD0#8]) 2 =
    some (0x0706050403020100F7F6F5F4F3F2F1F0#256, 0x400004#64) := by decide

/-- V-Y1. -/
theorem test_step_vpunpcklbwYmm : ymmAfter (ymmStart [0xC5#8, 0xFD#8, 0x60#8, 0xD1#8]) 2 =
    some (0xE717E616E515E414E313E212E111E010F707F606F505F404F303F202F101F000#256, 0x400004#64) := by decide

/-- V-Y6: the sources the other way round. -/
theorem test_step_vpunpcklbwYmm_other_way : ymmAfter (ymmStart [0xC5#8, 0xF5#8, 0x60#8, 0xD0#8]) 2 =
    some (0x17E716E615E514E413E312E211E110E007F706F605F504F403F302F201F100F0#256, 0x400004#64) := by decide

/-- V-Y2. -/
theorem test_step_vpunpcklwdYmm : ymmAfter (ymmStart [0xC5#8, 0xFD#8, 0x61#8, 0xD1#8]) 2 =
    some (0xE7E61716E5E41514E3E21312E1E01110F7F60706F5F40504F3F20302F1F00100#256, 0x400004#64) := by decide

/-- V-Y3. -/
theorem test_step_vpunpckldqYmm : ymmAfter (ymmStart [0xC5#8, 0xFD#8, 0x62#8, 0xD1#8]) 2 =
    some (0xE7E6E5E417161514E3E2E1E013121110F7F6F5F407060504F3F2F1F003020100#256, 0x400004#64) := by decide

/-- V-Y4. -/
theorem test_step_vpunpcklqdqYmm : ymmAfter (ymmStart [0xC5#8, 0xFD#8, 0x6C#8, 0xD1#8]) 2 =
    some (0xE7E6E5E4E3E2E1E01716151413121110F7F6F5F4F3F2F1F00706050403020100#256, 0x400004#64) := by decide

/-- V-Y14: a Mode32 instruction with a memory operand, over the eight registers of that mode. -/
theorem test_step_mode32 :
    ymmAfter (((withGpr (withGpr { inMode32 (launch [0xC5#8, 0xCD#8, 0x60#8, 0x3C#8, 0x7E#8]) with
        mem := memWrite .mode32 [] 0x5020#64 32 0xEFEEEDECEBEAE9E8E7E6E5E4E3E2E1E0FFFEFDFCFBFAF9F8F7F6F5F4F3F2F1F0#256 }
        6 0x5000#64) 7 0x10#64).writeYmm 6 0x1F1E1D1C1B1A191817161514131211100F0E0D0C0B0A09080706050403020100#256)) 7 =
      some (0xE717E616E515E414E313E212E111E010F707F606F505F404F303F202F101F000#256, 0x400005#64) := by decide +kernel

/-! ### Stops -/

/-- V-M12, V-Y13: `#UD` comes first. -/
theorem test_fault_ud_first :
    faultAfter { mmStart 0x60#8 0xC1#8 with
        env := { Env.reset with cr0EM := true, cr0TS := true, x87ExceptionPending := true } } =
      some (.exception .ud 0x400000#64) ∧
    faultAfter { ymmStart [0xC5#8, 0xFD#8, 0x60#8, 0xD1#8] with env := { Env.reset with cpuidAVX2 := false, cr0TS := true } } =
      some (.exception .ud 0x400000#64) := by decide

/-- V-S10, V-S12, V-M8: misaligned, non-canonical, alignment check. -/
theorem test_fault_memory_operand :
    faultAfter (withGpr (launch [0x66#8, 0x0F#8, 0x60#8, 0x5E#8, 0x10#8]) 6 0x2008#64) = some (.exception .gp 0x400000#64) ∧
    faultAfter (withGpr (launch [0x66#8, 0x0F#8, 0x60#8, 0x5E#8, 0x10#8]) 6 0x00007FFFFFFFFFF0#64) =
      some (.exception .gp 0x400000#64) ∧
    faultAfter { withGpr (launch [0x0F#8, 0x60#8, 0x00#8]) 0 0x1001#64 with env := { Env.reset with acEnabled := true } } =
      some (.exception .ac 0x400000#64) := by decide

/-- V-S11: an unused byte that is not allocated faults, at its own address. -/
theorem test_fault_unused_byte :
    (faultAfter { withGpr (launch [0x66#8, 0x0F#8, 0x60#8, 0x5E#8, 0x10#8]) 6 0x2000#64 with alloc := [⟨0x2010, 8⟩] }).map
      (fun f => ((faultRecord f).vector, (faultRecord f).linear)) = some (14, some 0x2018#64) := by decide

/-- R184 and R79: the end of the program, and bytes outside the group. -/
theorem test_refusals_of_step :
    refusalAfter State.reset = some .endOfRun ∧ refusalAfter (launch [0x90#8]) = some (.notDecoded .notThisGroup) := by decide

/-- The words of the table run as the first instruction after reset. -/
theorem test_withFetchWord_runs :
    mmAfter (State.reset.withFetchWord 16 0x0F61) 0 = some (0#64, 3#64) ∧
    ymmAfter (State.reset.withFetchWord 16 0x0F6C) 0 = some (0#256, 4#64) ∧
    ymmAfter (State.reset.withFetchWord 32 0xC4E17D60) 0 = some (0#256, 5#64) := by decide +kernel

/-! ### Each statement's hypotheses can be met -/

/-- `PUNPCKLBW mm0, [rax]`. -/
def mmxMem : Instr := .punpcklbwMm none 0 (.mem (.base 0 .none))

/-- `PUNPCKLBW xmm0, [rax]`. -/
def sseMem : Instr := .punpcklbwXmm none 0 (.mem (.base 0 .none))

/-- `VPUNPCKLBW xmm0, xmm0, [rax]`. -/
def vex128Mem : Instr := .vpunpcklbwXmm none 0 0 (.mem (.base 0 .none))

/-- `VPUNPCKLBW ymm0, ymm0, [rax]`. -/
def vex256Mem : Instr := .vpunpcklbwYmm none 0 0 (.mem (.base 0 .none))

/-- `PUNPCKLBW mm0, [rbp + 0]`, in SS. -/
def mmxStackMem : Instr := .punpcklbwMm none 0 (.mem (.base 5 (.d8 0#8)))

/-- The reset state with an address in rax and rbp. -/
def atAddr (a : Addr) : State := withGpr (withGpr State.reset 0 a) 5 a

theorem witness_GeneralFormAlternatesElements : 8 ∈ [8, 16, 32, 64] ∧ 64 ∈ [8, 16, 32, 64] ∧ 32 ∈ [8, 16, 32] := by decide

theorem witness_Functions256AlternateWithinLanes : 0 ∈ [0, 128] ∧ 128 ∈ [0, 128] := by decide

/-- Sources that differ, and only in the ignored halves. -/
theorem witness_HighOrderElementsAreIgnored :
    (∃ a a' : BitVec 128, a ≠ a' ∧ a.extractLsb' 0 64 = a'.extractLsb' 0 64) ∧
    (∃ a a' : BitVec 64, a ≠ a' ∧ a.extractLsb' 0 32 = a'.extractLsb' 0 32) ∧
    (∃ a a' : BitVec 256, a ≠ a' ∧ a.extractLsb' 0 64 = a'.extractLsb' 0 64 ∧
      a.extractLsb' 128 64 = a'.extractLsb' 128 64) :=
  ⟨⟨1#128 <<< 64, 0#128, by decide⟩, ⟨1#64 <<< 32, 0#64, by decide⟩, ⟨1#256 <<< 192, 0#256, by decide⟩⟩

/-- The last element of each width. -/
theorem witness_ZeroSecondSourceZeroExtends : 7 < 64 / 8 ∧ 0 < 64 / 64 ∧ 3 < 32 / 8 ∧ 0 < 32 / 32 := by decide

theorem witness_InterleaveDoublesAndComposes : 7 < 64 / 8 ∧ 0 < 64 / 64 ∧ 3 < 4 := by decide

theorem witness_MemReadIsLittleEndian : 0 < 1 ∧ 31 < 32 := by decide

/-- A write that wraps past the top of the address space, and an address outside it. -/
theorem witness_MemWriteIsReadBack :
    Memory.wf [(1, 7#8)] = true ∧ 2 ≤ 2 ^ 32 ∧ ∀ k, k < 2 → operandByteAddr .mode64 (-1) k ≠ 1 := by decide

/-- The four outcomes of an access check in the flat instance, the alignments at their boundary. -/
theorem witness_CheckReadFollowsItsOrder :
    (atAddr 0).access.segment Env.reset .ss 0x800000000000#64 16 = .fault ∧
    (atAddr 0).access.segment Env.reset .ds 0x800000000000#64 16 = .fault ∧
    ((atAddr 0).access.segment Env.reset .ds 8#64 16 = .linear 8#64 ∧ 1 < 16 ∧ (8#64).toNat % 16 ≠ 0) ∧
    (∃ code linear, (atAddr 0).access.segment Env.reset .ds 16#64 16 = .linear 16#64 ∧ (16#64).toNat % 16 = 0 ∧
      ({ State.reset with alloc := [⟨16, 15⟩] } : State).access.page Env.reset 16#64 16 = .fault code linear) ∧
    ((atAddr 0).access.segment { Env.reset with acEnabled := true } .ds 2#64 4 = .linear 2#64 ∧
      (atAddr 0).access.page { Env.reset with acEnabled := true } 2#64 4 = .ok ∧ (2#64).toNat % 4 ≠ 0) :=
  ⟨by decide, by decide, by decide, ⟨_, _, by decide, by decide, rfl⟩, by decide, by decide, by decide⟩

/-- The last canonical address below the hole, the first in it, the last in it and the first above it; the last Mode32 address
that fits and the first that does not; and operands wholly and not wholly allocated. -/
theorem witness_FlatAccessAnswers :
    Env.reset.mode = .mode64 ∧ (2 ^ 47 - 1#64).toNat < 2 ^ 47 ∧ 2 ^ 64 - 2 ^ 47 ≤ (-(2 ^ 47) : Addr).toNat ∧
    ¬ ((2 ^ 47 : Addr).toNat < 2 ^ 47 ∨ 2 ^ 64 - 2 ^ 47 ≤ (2 ^ 47 : Addr).toNat) ∧
    ¬ ((-(2 ^ 47) - 1 : Addr).toNat < 2 ^ 47 ∨ 2 ^ 64 - 2 ^ 47 ≤ (-(2 ^ 47) - 1 : Addr).toNat) ∧
    (0xFFFFFFFC#64).toNat + 4 ≤ 2 ^ 32 ∧ 2 ^ 32 < (0xFFFFFFFD#64).toNat + 4 ∧
    flatPage [⟨16, 4⟩] Env.reset 16#64 4 = .ok ∧ flatPage [⟨16, 4⟩] Env.reset 16#64 4 ≠ flatPage [⟨16, 3⟩] Env.reset 16#64 4 := by
  refine ⟨?_, ?_, ?_, ?_, ?_, ?_, ?_, ?_, ?_⟩
  · decide
  · decide
  · decide
  · decide
  · decide
  · decide
  · decide
  · decide
  · simp [flatPage, show missingBytes Env.reset.mode [⟨16, 4⟩] 16#64 4 = [] by decide,
      show missingBytes Env.reset.mode [⟨16, 3⟩] 16#64 4 = [3] by decide]

theorem witness_EffectiveAddressInMode64 : State.reset.env.mode = .mode64 := by decide

theorem witness_EffectiveAddressInMode32 : (inMode32 State.reset).env.mode = .mode32 := by decide

/-- A well-formed instruction of each family in each mode: R65's highest registers, and the longest instruction. -/
theorem witness_DecodeOfEncodeIsTheInstruction :
    Instr.wf .mode64 (.punpckldqMm (some ⟨true, true, true⟩) 7 (.mem (.sib 3#2 15 15 (.d32 0#32)))) = true ∧
    Instr.wf .mode64 (.punpcklqdqXmm (some ⟨false, false, true⟩) 15 (.reg 15)) = true ∧
    Instr.wf .mode64 (.vpunpckldqYmm (some ⟨false, true, true⟩) 15 15 (.mem (.sib 3#2 12 13 (.d32 0#32)))) = true ∧
    Instr.wf .mode32 (.vpunpcklwdXmm none 7 7 (.mem (.sib 0#2 4 4 .none))) = true ∧ Instr.wf .mode32 mmxMem = true := by decide

theorem witness_EncodeOfDecodeIsTheBytes :
    decode .mode64 [0x0F#8, 0x60#8, 0xC1#8, 0x90#8] = .instr (.punpcklbwMm none 0 (.reg 1)) := by decide

/-- The shortest and the longest instruction. -/
theorem witness_DecodedLengthWithinBytes :
    decode .mode64 [0x0F#8, 0x60#8, 0xC1#8] = .instr (.punpcklbwMm none 0 (.reg 1)) ∧
    decode .mode64 [0xC4#8, 0xE1#8, 0x79#8, 0x60#8, 0x84#8, 0x00#8, 0x00#8, 0x00#8, 0x00#8, 0x00#8] =
      .instr (.vpunpcklbwXmm (some ⟨false, false, false⟩) 0 0 (.mem (.sib 0#2 0 0 (.d32 0#32)))) := by decide

theorem witness_ProperBeginningIsTruncated :
    Instr.wf .mode64 sseMem = true ∧ 0 < instrLen sseMem ∧ instrLen sseMem - 1 < instrLen sseMem := by decide

theorem witness_LockAndPrefixedVexAreInvalid :
    Instr.wf .mode64 vex128Mem = true ∧ formOf vex128Mem = .vex128 ∧ formOf vex256Mem = .vex256 ∧ isRex 0x40#8 = true ∧
    isRex 0x4F#8 = true := by decide

theorem witness_UndescribedPrefixesAreRefused :
    Instr.wf .mode64 mmxMem = true ∧ formOf mmxMem = .mmx ∧ Instr.wf .mode32 sseMem = true ∧ formOf sseMem = .sse := by decide

/-- REX.R, REX.B; REX.R with a memory source, the operands with the fewest and the most bytes; `B'` = 0, `vvvv'[3]` = 0. -/
theorem witness_ReservedRegisterBitsAreRefused :
    (isRex 0x44#8 = true ∧ (0xC1#8).extractLsb' 6 2 = 3#2 ∧ (0x44#8).getLsbD 2 = true) ∧
    (isRex 0x41#8 = true ∧ (0x41#8).getLsbD 0 = true) ∧
    (MemOp.wf false false (.base 0 .none) = true ∧ MemOp.wf true true (.sib 3#2 15 15 (.d32 0#32)) = true) ∧
    ((0xC1#8).extractLsb' 6 2 = 3#2 ∧ (0xC1#8).extractLsb' 0 5 = 1#5 ∧ (0x79#8).extractLsb' 0 2 = 1#2 ∧
      (0xC1#8).getLsbD 5 = false) ∧
    ((0xE1#8).extractLsb' 6 2 = 3#2 ∧ (0xE1#8).extractLsb' 0 5 = 1#5 ∧ (0x39#8).extractLsb' 0 2 = 1#2 ∧
      (0x39#8).getLsbD 6 = false) := by decide

/-- V-D15. -/
theorem witness_VexWChangesNothing :
    decode .mode64 [0xC4#8, 0xE1#8, 0x79#8, 0x60#8, 0xD1#8] = .instr (.vpunpcklbwXmm (some ⟨false, false, false⟩) 2 0 (.reg 1)) := by
  decide

/-- A register source, and a memory source that is misaligned without alignment checking. -/
theorem witness_MmxFormsComplete :
    MmxReady Env.reset ∧ MmSource (atAddr 1) 3 (.reg 7) 0#32 ∧ MmSource (atAddr 1) 3 (.mem (.base 0 .none)) 0#32 :=
  ⟨by decide, rfl, 1#64, by decide, by decide, by decide⟩

/-- A register source, and an aligned memory source. -/
theorem witness_LegacySseFormsComplete :
    SseReady Env.reset ∧ RegistersExist (atAddr 16) (.punpcklbwXmm none 15 (.reg 15)) ∧
    RegistersExist (inMode32 (atAddr 16)) (.punpcklbwXmm none 7 (.reg 7)) ∧ SseSource (atAddr 16) 4 (.reg 15) 0#128 ∧ SseSource (atAddr 16) 4 (.mem (.base 0 .none)) 0#128 :=
  ⟨by decide, by decide, by decide, rfl, 16#64, by decide, by decide, by decide +kernel⟩

/-- A register source, and a misaligned memory source. -/
theorem witness_Vex128FormsComplete :
    VexReady Env.reset ∧ Env.reset.cpuidAVX = true ∧ RegistersExist (atAddr 1) (.vpunpcklbwXmm none 15 15 (.reg 15)) ∧
    RegistersExist (inMode32 (atAddr 1)) (.vpunpcklbwXmm none 7 7 (.reg 7)) ∧ Vex128Source (atAddr 1) 4 (.reg 15) 0#128 ∧
    Vex128Source (atAddr 1) 4 (.mem (.base 0 .none)) 0#128 :=
  ⟨by decide, by decide, by decide, by decide, rfl, 1#64, by decide, by decide, by decide +kernel⟩

/-- A register source, and a misaligned memory source. -/
theorem witness_Vex256FormsComplete :
    VexReady Env.reset ∧ Env.reset.cpuidAVX2 = true ∧ RegistersExist (atAddr 1) (.vpunpcklbwYmm none 15 15 (.reg 15)) ∧
    RegistersExist (inMode32 (atAddr 1)) (.vpunpcklbwYmm none 7 7 (.reg 7)) ∧ Vex256Source (atAddr 1) 4 (.reg 15) 0#256 ∧
    Vex256Source (atAddr 1) 4 (.mem (.base 0 .none)) 0#256 :=
  ⟨by decide, by decide, by decide, by decide, rfl, 1#64, by decide, by decide +kernel⟩

theorem witness_CompletionChangesOnlyDestination : ∃ t, exec sseMem (atAddr 16) = .next t := ⟨_, rfl⟩

/-- A register form that completes, and one that faults. -/
theorem witness_RegisterFormsMakeNoDataAccess :
    memOpOf (.punpcklbwMm none 0 (.reg 1)) = none ∧ (∃ t, exec (.punpcklbwMm none 0 (.reg 1)) State.reset = .next t) ∧
    (∃ f, exec (.punpcklbwMm none 0 (.reg 1)) { State.reset with env := { Env.reset with cr0TS := true } } = .fault f) :=
  ⟨by decide, ⟨_, rfl⟩, _, rfl⟩

/-- A memory form that completes, with a memory that differs in an unused byte and one that differs in a used byte; and one that
faults. -/
theorem witness_ResultDependsOnUsedOperandBytes :
    memOpOf sseMem = some (.base 0 .none) ∧ RegistersExist (atAddr 16) sseMem ∧
    (atAddr 16).access.segment (atAddr 16).env (effAddr (atAddr 16) (instrLen sseMem) (.base 0 .none)).1
      (effAddr (atAddr 16) (instrLen sseMem) (.base 0 .none)).2 (operandBytes (formOf sseMem)) = .linear 16#64 ∧
    (∃ t, exec sseMem (atAddr 16) = .next t) ∧
    (∀ k ∈ usedBytes (formOf sseMem), Memory.read [(24, 1#8)] (operandByteAddr .mode64 16#64 k) =
      (atAddr 16).mem.read (operandByteAddr .mode64 16#64 k)) ∧
    (7 ∈ usedBytes (formOf sseMem) ∧ Memory.read [(23, 1#8)] (operandByteAddr .mode64 16#64 7) ≠
      (atAddr 16).mem.read (operandByteAddr .mode64 16#64 7)) ∧
    (∃ f, exec sseMem (atAddr 8) = .fault f) :=
  ⟨by decide, by decide, by decide, ⟨_, rfl⟩, by decide, by decide, _, rfl⟩

/-- An instruction of each family, and settings that meet the conditions of each exception together. -/
theorem witness_PreChecksRaiseInOrder :
    formOf mmxMem = .mmx ∧ formOf sseMem = .sse ∧ formOf vex128Mem = .vex128 ∧ formOf vex256Mem = .vex256 ∧
    (∃ e : Env, e.cpuidMMX = true ∧ e.cr0EM = false ∧ e.cr0TS = false ∧ e.x87ExceptionPending = true) ∧
    (∃ e : Env, e.cpuidMMX = true ∧ e.cpuidSSE2 = true ∧ e.cr0EM = false ∧ e.cr4OSFXSR = true ∧ e.cr4OSXSAVE = true ∧
      e.xcr0SSE = true ∧ e.xcr0AVX = true ∧ e.cpuidAVX = true ∧ e.cpuidAVX2 = true ∧ e.cr0TS = true) :=
  ⟨by decide, by decide, by decide, by decide, ⟨{ Env.reset with x87ExceptionPending := true }, by decide⟩,
    { Env.reset with cr0TS := true }, by decide⟩

theorem witness_BootRequirementsSufficeAndAreNeeded :
    FormReady Env.reset .mmx ∧ memOpOf (.punpcklbwMm none 0 (.reg 1)) = none ∧
    ¬ FormReady { Env.reset with cr0TS := true } .vex256 :=
  ⟨(by decide : MmxReady Env.reset), by decide, fun h => absurd h.1.2.2.2 (by decide)⟩

theorem witness_VexL1IsInvalidExactlyWithoutAvx2 :
    formOf vex256Mem = .vex256 ∧ VexReady Env.reset ∧ VexReady { Env.reset with cpuidAVX2 := false } := by decide

/-- The operand one byte short of alignment. -/
theorem witness_LegacySseMisalignmentFaults :
    formOf sseMem = .sse ∧ memOpOf sseMem = some (.base 0 .none) ∧ SseReady (atAddr 15).env ∧
    (atAddr 15).access.segment (atAddr 15).env (effAddr (atAddr 15) (instrLen sseMem) (.base 0 .none)).1
      (effAddr (atAddr 15) (instrLen sseMem) (.base 0 .none)).2 16 = .linear 15#64 ∧ (15#64).toNat % 16 ≠ 0 := by decide

/-- A misaligned operand of a VEX.128 form under both settings of the parameter, and of a VEX.256 form. -/
theorem witness_VexAlignmentFollowsParameter :
    memOpOf vex128Mem = some (.base 0 .none) ∧ FormReady (atAddr 1).env (formOf vex128Mem) ∧
    Reachable (atAddr 1) (instrLen vex128Mem) (.base 0 .none) (operandBytes (formOf vex128Mem)) 1#64 ∧ (1#64).toNat % 16 ≠ 0 ∧
    (atAddr 1).env.vexM128AlignmentEnforced = false ∧
    Reachable { atAddr 1 with env := { Env.reset with vexM128AlignmentEnforced := true } } (instrLen vex128Mem) (.base 0 .none)
      (operandBytes (formOf vex128Mem)) 1#64 ∧
    FormReady { Env.reset with vexM128AlignmentEnforced := true } (formOf vex128Mem) ∧
    FormReady (atAddr 1).env (formOf vex256Mem) ∧
    Reachable (atAddr 1) (instrLen vex256Mem) (.base 0 .none) (operandBytes (formOf vex256Mem)) 1#64 :=
  ⟨by decide, (by decide : VexReady (atAddr 1).env ∧ (atAddr 1).env.cpuidAVX = true), by decide, by decide, by decide, by decide,
    (by decide : VexReady Env.reset ∧ Env.reset.cpuidAVX = true),
    (by decide : VexReady (atAddr 1).env ∧ (atAddr 1).env.cpuidAVX2 = true), by decide⟩

/-- A misaligned `m32` with and without alignment checking. -/
theorem witness_MmxAlignmentCheck :
    formOf mmxMem = .mmx ∧ memOpOf mmxMem = some (.base 0 .none) ∧ MmxReady (atAddr 3).env ∧
    Reachable (atAddr 3) (instrLen mmxMem) (.base 0 .none) 4 3#64 ∧ (3#64).toNat % 4 ≠ 0 ∧ (atAddr 3).env.acEnabled = false ∧
    Reachable { atAddr 3 with env := { Env.reset with acEnabled := true } } (instrLen mmxMem) (.base 0 .none) 4 3#64 := by decide

/-- The first and the last byte of an operand not allocated. -/
theorem witness_UnallocatedOperandByteFaults :
    memOpOf sseMem = some (.base 0 .none) ∧ FormReady (atAddr 16).env (formOf sseMem) ∧ (atAddr 16).pageAnswers = [] ∧
    (atAddr 16).access.segment (atAddr 16).env (effAddr (atAddr 16) (instrLen sseMem) (.base 0 .none)).1
      (effAddr (atAddr 16) (instrLen sseMem) (.base 0 .none)).2 (operandBytes (formOf sseMem)) = .linear 16#64 ∧
    (16#64).toNat % 16 = 0 ∧ 15 < operandBytes (formOf sseMem) ∧
    allocated [] (operandByteAddr .mode64 16#64 0) = false ∧
    allocated [⟨16, 15⟩] (operandByteAddr .mode64 16#64 15) = false ∧
    (∀ j, j < 15 → allocated [⟨16, 15⟩] (operandByteAddr .mode64 16#64 j) = true) :=
  ⟨by decide, (by decide : SseReady (atAddr 16).env), by decide, by decide, by decide, by decide, by decide, by decide, by decide⟩

/-- Both ends of the non-canonical range in both segments, and the first Mode32 operand that passes the top. -/
theorem witness_IllegalAddressFaultsBySegment :
    memOpOf mmxMem = some (.base 0 .none) ∧ memOpOf mmxStackMem = some (.base 5 (.d8 0#8)) ∧
    FormReady (atAddr (2 ^ 47)).env (formOf mmxMem) ∧ (atAddr (2 ^ 47)).segAnswers = [] ∧
    effAddr (atAddr (2 ^ 47)) 3 (.base 0 .none) = (.ds, 2 ^ 47) ∧
    effAddr (atAddr (-(2 ^ 47) - 1)) 4 (.base 5 (.d8 0#8)) = (.ss, -(2 ^ 47) - 1) ∧
    2 ^ 47 ≤ (2 ^ 47 : Addr).toNat ∧ (-(2 ^ 47) - 1 : Addr).toNat < 2 ^ 64 - 2 ^ 47 ∧
    effAddr (inMode32 (atAddr 0xFFFFFFFD#64)) 3 (.base 0 .none) = (.ds, 0xFFFFFFFD#64) ∧
    2 ^ 32 < (0xFFFFFFFD#64).toNat + operandBytes (formOf mmxMem) :=
  ⟨by decide, by decide, (by decide : MmxReady Env.reset), by decide, by decide, by decide, by decide, by decide, by decide,
    by decide⟩

/-- `#MF`, `#AC`, `#SS`, `#GP` and `#PF` each occur. -/
theorem witness_ExceptionsComeFromTheirForms :
    exec mmxMem { atAddr 0 with env := { Env.reset with x87ExceptionPending := true } } = .fault (.exception .mf 0#64) ∧
    exec mmxMem { atAddr 3 with env := { Env.reset with acEnabled := true } } = .fault (.exception .ac 0#64) ∧
    exec mmxStackMem (atAddr (2 ^ 47)) = .fault (.exception .ss 0#64) ∧
    exec sseMem (atAddr 8) = .fault (.exception .gp 0#64) ∧
    (∃ code la, exec sseMem { atAddr 16 with alloc := [] } = .fault (.exception (.pf code la) 0#64)) :=
  ⟨rfl, rfl, rfl, rfl, _, _, rfl⟩

theorem witness_FaultRecordIsOneOfSeven : ∃ f, step (launch [0xF0#8, 0x0F#8, 0x60#8, 0x00#8]) = .fault f := ⟨_, rfl⟩

/-- R79: REX.R on an MMX form with a memory source (`44 0F 60 00`), refused; REX.B on it (`41 0F 60 00`) names the base r8. -/
theorem test_decode_mmx_rex_with_memory :
    decode .mode64 [0x44#8, 0x0F#8, 0x60#8, 0x00#8] = .refused .mmxRegisterExtension ∧
    decode .mode64 [0x41#8, 0x0F#8, 0x60#8, 0x00#8] =
      .instr (.punpcklbwMm (some ⟨false, false, true⟩) 0 (.mem (.base 8 .none))) := by decide

/-- R150: the vector of each exception. -/
theorem test_exception_vectors :
    [Exc.ud, .nm, .mf, .ss, .gp, .pf 0 0#64, .ac].map excVector = [6, 7, 16, 12, 13, 14, 17] := by decide

/-- An instruction at pc, at the last place a program may lie. -/
theorem witness_StepRunsDecodedInstruction :
    launchOk (({ State.reset with pc := -4 } : State).placeProgram [0x0F#8, 0x60#8, 0xC1#8]) = true ∧
    pcOffset (launch [0x0F#8, 0x60#8, 0xC1#8]) < (launch [0x0F#8, 0x60#8, 0xC1#8]).program.length ∧
    launchOk (launch [0x0F#8, 0x60#8, 0xC1#8]) = true ∧
    decode (launch [0x0F#8, 0x60#8, 0xC1#8]).env.mode
      ((launch [0x0F#8, 0x60#8, 0xC1#8]).program.drop (pcOffset (launch [0x0F#8, 0x60#8, 0xC1#8]))) =
      .instr (.punpcklbwMm none 0 (.reg 1)) := by decide

/-- Bytes that decode to `#UD`, bytes that are refused, and the end of the program. -/
theorem witness_StepStopsByName :
    (launchOk (launch [0xF0#8, 0x0F#8, 0x60#8, 0x00#8]) = true ∧
      pcOffset (launch [0xF0#8, 0x0F#8, 0x60#8, 0x00#8]) < (launch [0xF0#8, 0x0F#8, 0x60#8, 0x00#8]).program.length ∧
      decode .mode64 [0xF0#8, 0x0F#8, 0x60#8, 0x00#8] = .ud) ∧
    (launchOk (launch [0x90#8]) = true ∧ pcOffset (launch [0x90#8]) < (launch [0x90#8]).program.length ∧
      decode .mode64 [0x90#8] = .refused .notThisGroup) ∧
    (launchOk (launch []) = true ∧ pcOffset (launch []) = (launch []).program.length) := by decide

/-- A step of an MMX form and a step of a VEX form. -/
theorem witness_StepChangesAtMostOneRegister :
    (∃ t, step (launch [0x0F#8, 0x60#8, 0xC1#8]) = .next t) ∧ (∃ t, step (launch [0xC5#8, 0xFD#8, 0x60#8, 0xD1#8]) = .next t) :=
  ⟨⟨_, rfl⟩, _, rfl⟩

theorem witness_Mode32StepKeepsHighRegisters :
    (inMode32 (launch [0xC5#8, 0xFD#8, 0x60#8, 0xD1#8])).env.mode = .mode32 ∧
    (∃ t, step (inMode32 (launch [0xC5#8, 0xFD#8, 0x60#8, 0xD1#8])) = .next t) ∧
    Inv (inMode32 (launch [0xC5#8, 0xFD#8, 0x60#8, 0xD1#8])) ∧ 8 ≤ (8 : VReg).val ∧ 8 ≤ (15 : VReg).val :=
  ⟨by decide, ⟨_, rfl⟩, by decide, by decide, by decide⟩

/-- A state after launch meets the invariant and has a next state, in both modes. -/
theorem witness_StepKeepsTheInvariant :
    (Inv (launch [0x0F#8, 0x60#8, 0xC1#8]) ∧ ∃ t, step (launch [0x0F#8, 0x60#8, 0xC1#8]) = .next t) ∧
    (Inv (inMode32 (launch [0x0F#8, 0x60#8, 0xC1#8])) ∧ ∃ t, step (inMode32 (launch [0x0F#8, 0x60#8, 0xC1#8])) = .next t) :=
  ⟨⟨by decide, _, rfl⟩, by decide, _, rfl⟩

/-- A state of each mode that meets the invariant, register numbers at the edge of each file, and an instruction of each mode that
names the last one. -/
theorem witness_VectorRegistersAreTheModes :
    (Inv (launch []) ∧ (launch []).env.mode = .mode64 ∧ (launch []).hasYmm 15 = true) ∧
    (Inv (inMode32 (launch [])) ∧ (inMode32 (launch [])).env.mode = .mode32 ∧ (inMode32 (launch [])).hasYmm 7 = true ∧
      (inMode32 (launch [])).hasYmm 8 = false) ∧
    decode .mode64 [0x66#8, 0x45#8, 0x0F#8, 0x6C#8, 0xFF#8] =
      .instr (.punpcklqdqXmm (some ⟨false, false, true⟩) 15 (.reg 15)) ∧
    decode .mode32 [0x66#8, 0x0F#8, 0x6C#8, 0xFF#8] = .instr (.punpcklqdqXmm none 7 (.reg 7)) := by decide

/-- Program P1 of 95_test_vectors.md runs two steps. -/
theorem witness_RunsAreBoundedByTheProgram :
    ∃ t, Host.Core.run Sys2Proof.core 2 (launch [0x66#8, 0x0F#8, 0x60#8, 0xC1#8, 0x66#8, 0x0F#8, 0x61#8, 0xC1#8]) = .next t :=
  ⟨_, rfl⟩

end Sys2Proof.Tests
end

section
/-! SUPPORT. Proofs of the statements of 00_scope.md: `MemWrite` is read back and changes no other byte, the meanings never
refuse, and a step runs the instruction that stands at pc. -/

namespace Sys2Proof.Proofs.Scope

open Sys2Proof Sys2Proof.Machine

/-! ### Addresses of operand bytes -/

/-- Byte `k` of the operand that begins one byte further on is byte `k + 1` of this one. -/
theorem operandByteAddr_add_one (m : Mode) (la : Addr) (k : Nat) :
    operandByteAddr m (la + 1#64) k = operandByteAddr m la (k + 1) := by
  have hsum : la + 1#64 + BitVec.ofNat 64 k = la + BitVec.ofNat 64 (k + 1) := by
    rw [BitVec.add_assoc, ← BitVec.ofNat_add, Nat.add_comm 1 k]
  rw [operandByteAddr, operandByteAddr, hsum]

/-- No two bytes of an operand of at most `2^32` bytes share an address, although addresses wrap (log 9): `2^32` is the size of
the smaller of the two address spaces. -/
theorem operandByteAddr_inj {m : Mode} {la : Addr} {j k : Nat} (hj : j < 2 ^ 32) (hk : k < 2 ^ 32)
    (h : operandByteAddr m la j = operandByteAddr m la k) : j = k := by
  cases m with
  | mode64 =>
    simp only [operandByteAddr, truncAddr, BitVec.toNat_add, BitVec.toNat_ofNat] at h
    omega
  | mode32 =>
    simp only [operandByteAddr, truncAddr, BitVec.toNat_setWidth, BitVec.toNat_add, BitVec.toNat_ofNat] at h
    omega

/-! ### Reading back what was written (R10, R42) -/

/-- `MemWrite` changes no byte outside the operand. -/
theorem read_memWrite_other {m : Mode} {mem : Memory} {la : Addr} {n a : Nat} {v : BitVec (8 * n)}
    (h : ∀ k, k < n → operandByteAddr m la k ≠ a) : (memWrite m mem la n v).read a = mem.read a := by
  induction n generalizing mem la with
  | zero => rfl
  | succ n ih =>
    have hrest : ∀ k, k < n → operandByteAddr m (la + 1#64) k ≠ a := fun k hk => by
      rw [operandByteAddr_add_one]
      exact h (k + 1) (Nat.succ_lt_succ hk)
    rw [memWrite, ih hrest, read_write_other (h 0 n.succ_pos).symm]

/-- The low byte of a written value is the byte at `la`: none of the later writes falls on it. -/
theorem read_memWrite_first {m : Mode} {mem : Memory} {la : Addr} {n : Nat} {v : BitVec (8 * (n + 1))}
    (hwf : mem.wf = true) (hn : n + 1 ≤ 2 ^ 32) :
    (memWrite m mem la (n + 1) v).read (operandByteAddr m la 0) = v.extractLsb' 0 8 := by
  have hrest : ∀ k, k < n → operandByteAddr m (la + 1#64) k ≠ operandByteAddr m la 0 := fun k hk heq => by
    rw [operandByteAddr_add_one] at heq
    exact absurd (operandByteAddr_inj (by omega) (by omega) heq) k.succ_ne_zero
  rw [memWrite, read_memWrite_other hrest, read_write_same hwf]

/-- `MemRead` after `MemWrite` to the same operand reads the value written. -/
theorem memRead_memWrite_same {m : Mode} {mem : Memory} {la : Addr} {n : Nat} {v : BitVec (8 * n)}
    (hwf : mem.wf = true) (hn : n ≤ 2 ^ 32) : memRead m (memWrite m mem la n v) la n = v := by
  induction n generalizing mem la with
  | zero => exact (BitVec.eq_nil v).symm
  | succ n ih =>
    have hupper : memRead m (memWrite m mem la (n + 1) v) (la + 1#64) n = v.extractLsb' 8 (8 * n) :=
      ih (write_keeps_wf hwf (BitVec.isLt _)) (by omega)
    rw [memRead, hupper, read_memWrite_first hwf hn]
    exact BitVec.extractLsb'_append_extractLsb' (x := v)

/-- Settles O10, by induction on the number of bytes: the bytes of an operand have different addresses, so each byte written
stays until it is read back. -/
theorem memWriteIsReadBack : Obligations.MemWriteIsReadBack :=
  fun _ _ _ _ _ hwf hn => ⟨memRead_memWrite_same hwf hn, fun _ => read_memWrite_other⟩

/-! ### Meanings never refuse (R11) -/

theorem execMmx_not_refused {f p d src} {s : State} {r : Refusal} : execMmx f p d src s ≠ .refused r := complete_not_refused

theorem execSse_not_refused {f p d src} {s : State} {r : Refusal} : execSse f p d src s ≠ .refused r := complete_not_refused

theorem execVex128_not_refused {f p d s1 src} {s : State} {r : Refusal} : execVex128 f p d s1 src s ≠ .refused r :=
  complete_not_refused

theorem execVex256_not_refused {f p d s1 src} {s : State} {r : Refusal} : execVex256 f p d s1 src s ≠ .refused r :=
  complete_not_refused

/-- Settles O41, by cases on the instruction: each is one of the four families, and each family is a `complete`. -/
theorem meaningsNeverRefuse : Obligations.MeaningsNeverRefuse := by
  intro i s r
  cases i with
  | punpcklbwMm | punpcklwdMm | punpckldqMm => exact execMmx_not_refused
  | punpcklbwXmm | punpcklwdXmm | punpckldqXmm | punpcklqdqXmm => exact execSse_not_refused
  | vpunpcklbwXmm | vpunpcklwdXmm | vpunpckldqXmm | vpunpcklqdqXmm => exact execVex128_not_refused
  | vpunpcklbwYmm | vpunpcklwdYmm | vpunpckldqYmm | vpunpcklqdqYmm => exact execVex256_not_refused

/-! ### The step is the meaning of the decoded instruction (R11, R24, R182) -/

/-- With the program below the top of the address space and pc inside it, a fetch is the decoder's answer at pc. -/
theorem fetch_eq_decode {s : State} (hl : launchOk s = true) (hpc : pcOffset s < s.program.length) :
    fetch s = .ok (decode s.env.mode (s.program.drop (pcOffset s))) := by
  have hnotEnd : pcOffset s ≠ s.program.length := Nat.ne_of_lt hpc
  have hnotOutside : ¬ s.program.length < pcOffset s := Nat.lt_asymm hpc
  simp [fetch, hl, hnotEnd, hnotOutside]

/-- Where a fetch gives an instruction, the step is its meaning. -/
theorem step_of_fetch_instr {s : State} {i : Instr} (h : fetch s = .ok (.instr i)) : step s = exec i s := by
  simp [step, h]

/-- Settles O42: the fetch is the decoder's answer, and the step adds nothing to the meaning of the instruction in it. -/
theorem stepRunsDecodedInstruction : Obligations.StepRunsDecodedInstruction := fun _ _ hl hpc hdec =>
  step_of_fetch_instr ((fetch_eq_decode hl hpc).trans (congrArg Except.ok hdec))

end Sys2Proof.Proofs.Scope
end

section
/-! SUPPORT. Proofs of the statements of 10_state.md: what a completed instruction and a step write, that the invariant is kept,
and that the vector registers are those of the mode. -/

namespace Sys2Proof.Proofs.MachineState

open Sys2Proof Sys2Proof.Machine

/-! ### What a completed instruction writes (R9, R110, R120, R130, R140) -/

theorem execMmx_next {f p d src} {s t : State} (h : execMmx f p d src s = .next t) :
    ∃ v, t = (s.writeMm d v).advance (mmLen p src) := by
  obtain ⟨-, v, -, rfl⟩ := complete_next.1 h
  exact ⟨_, rfl⟩

theorem execSse_next {f p d src} {s t : State} (h : execSse f p d src s = .next t) :
    ∃ v, t = (s.writeYmm d v).advance (xmmLen p src) := by
  obtain ⟨-, v, -, rfl⟩ := complete_next.1 h
  exact ⟨_, rfl⟩

theorem execVex128_next {f p d s1 src} {s t : State} (h : execVex128 f p d s1 src s = .next t) :
    ∃ v, t = (s.writeYmm d v).advance (vexLen p src) := by
  obtain ⟨-, v, -, rfl⟩ := complete_next.1 h
  exact ⟨_, rfl⟩

theorem execVex256_next {f p d s1 src} {s t : State} (h : execVex256 f p d s1 src s = .next t) :
    ∃ v, t = (s.writeYmm d v).advance (vexLen p src) := by
  obtain ⟨-, v, -, rfl⟩ := complete_next.1 h
  exact ⟨_, rfl⟩

/-- All that a completed instruction does: one write to its destination, an MMX register or a vector register that it names, and pc
moves by its length. -/
theorem exec_next {i : Instr} {s t : State} (h : exec i s = .next t) :
    (∃ d v, t = (s.writeMm d v).advance (instrLen i) ∧ OnlyDestination i = OnlyMm d) ∨
    (∃ d v, t = (s.writeYmm d v).advance (instrLen i) ∧ OnlyDestination i = OnlyYmm d ∧ d ∈ vregsOf i) := by
  cases i with
  | punpcklbwMm p d src | punpcklwdMm p d src | punpckldqMm p d src =>
    obtain ⟨v, ht⟩ := execMmx_next h
    exact .inl ⟨d, v, ht, rfl⟩
  | punpcklbwXmm p d src | punpcklwdXmm p d src | punpckldqXmm p d src | punpcklqdqXmm p d src =>
    obtain ⟨v, ht⟩ := execSse_next h
    exact .inr ⟨d, v, ht, rfl, List.mem_cons_self⟩
  | vpunpcklbwXmm p d s1 src | vpunpcklwdXmm p d s1 src | vpunpckldqXmm p d s1 src | vpunpcklqdqXmm p d s1 src =>
    obtain ⟨v, ht⟩ := execVex128_next h
    exact .inr ⟨d, v, ht, rfl, List.mem_cons_self⟩
  | vpunpcklbwYmm p d s1 src | vpunpcklwdYmm p d s1 src | vpunpckldqYmm p d s1 src | vpunpcklqdqYmm p d s1 src =>
    obtain ⟨v, ht⟩ := execVex256_next h
    exact .inr ⟨d, v, ht, rfl, List.mem_cons_self⟩

theorem onlyMm_writeMm_advance (s : State) (d : MmReg) (v : BitVec 64) (n : Nat) :
    OnlyMm d s ((s.writeMm d v).advance n) :=
  ⟨fun _ hr => readMm_writeMm_other s v hr, rfl, fun _ => rfl, fun _ => rfl, rfl, rfl, rfl, rfl, rfl, rfl⟩

theorem onlyYmm_writeYmm_advance (s : State) (d : VReg) (v : BitVec 256) (n : Nat) :
    OnlyYmm d s ((s.writeYmm d v).advance n) :=
  ⟨fun _ hr => readYmm_writeYmm_other s v hr, fun r => hasYmm_writeYmm s d v r, fun _ => rfl, fun _ => rfl, fun _ => rfl,
    rfl, rfl, rfl, rfl, rfl, rfl⟩

/-- Settles O28: the one write of a completed instruction is to its destination. -/
theorem completionChangesOnlyDestination : Obligations.CompletionChangesOnlyDestination := by
  intro i s t h
  obtain ⟨d, v, rfl, hdest⟩ | ⟨d, v, rfl, hdest, -⟩ := exec_next h
  · exact ⟨rfl, hdest ▸ onlyMm_writeMm_advance s d v _⟩
  · exact ⟨rfl, hdest ▸ onlyYmm_writeYmm_advance s d v _⟩

/-! ### What a step that answers a next state has done (R11) -/

theorem fetch_ok {s : State} {x : Decoded} (h : fetch s = .ok x) :
    pcOffset s < s.program.length ∧ decode s.env.mode (s.program.drop (pcOffset s)) = x := by
  unfold fetch at h
  split_ifs at h with _ hend hpast
  exact ⟨by omega, Except.ok.inj h⟩

/-- A step that answers a next state completed the instruction fetched at pc. -/
theorem step_next {s t : State} (h : step s = .next t) : ∃ i, fetch s = .ok (.instr i) ∧ exec i s = .next t := by
  unfold step at h
  split at h
  next => cases h
  next i hf => exact ⟨i, hf, h⟩
  next => cases h
  next => cases h

/-- Settles O44: the step completed one instruction, which has one destination. -/
theorem stepChangesAtMostOneRegister : Obligations.StepChangesAtMostOneRegister := by
  intro s t h
  obtain ⟨i, -, hexec⟩ := step_next h
  obtain ⟨d, v, rfl, -⟩ | ⟨d, v, rfl, -, -⟩ := exec_next hexec
  · exact .inl ⟨d, onlyMm_writeMm_advance s d v _⟩
  · exact .inr ⟨d, onlyYmm_writeYmm_advance s d v _⟩

/-! ### The bytes a decoded operand takes (R64, R66, R73) -/

theorem takeDisp32_length {bytes : List Byte} {v : BitVec 32} (h : takeDisp32 bytes = some v) : 4 ≤ bytes.length := by
  unfold takeDisp32 at h
  split at h
  next => simp
  next => cases h

theorem takeDisp_length {mod : BitVec 2} {bytes : List Byte} {d : Disp} (h : takeDisp mod bytes = some d) :
    dispLen d ≤ bytes.length := by
  unfold takeDisp at h
  split_ifs at h
  · cases h
    exact Nat.zero_le _
  · obtain ⟨v, hv, rfl⟩ := Option.map_eq_some_iff.1 h
    exact List.length_pos_of_mem (List.mem_of_mem_head? hv)
  · obtain ⟨v, hv, rfl⟩ := Option.map_eq_some_iff.1 h
    exact takeDisp32_length hv

/-- SIB byte and displacement are among the bytes after the ModRM byte. -/
theorem takeMemOp_length {x b : Bool} {mod : BitVec 2} {rm : BitVec 3} {bytes : List Byte} {m : MemOp}
    (h : takeMemOp x b mod rm bytes = some m) : rmLen (.mem m : RM (BitVec 3)) ≤ bytes.length + 1 := by
  unfold takeMemOp at h
  split_ifs at h
  · split at h
    next => cases h
    next sib rest =>
      dsimp only at h
      split_ifs at h
      · obtain ⟨v, hv, rfl⟩ := Option.map_eq_some_iff.1 h
        have := takeDisp32_length hv
        simp only [rmLen, List.length_cons]
        omega
      · obtain ⟨d, hd, rfl⟩ := Option.map_eq_some_iff.1 h
        have := takeDisp_length hd
        simp only [rmLen, List.length_cons]
        omega
  · obtain ⟨v, hv, rfl⟩ := Option.map_eq_some_iff.1 h
    have := takeDisp32_length hv
    simp only [rmLen]
    omega
  · obtain ⟨d, hd, rfl⟩ := Option.map_eq_some_iff.1 h
    have := takeDisp_length hd
    simp only [rmLen]
    omega

/-- ModRM byte, SIB byte and displacement are among the bytes read. -/
theorem takeModRM_length {x b : Bool} {bytes : List Byte} {reg : BitVec 3} {rm : RM (BitVec 3)}
    (h : takeModRM x b bytes = some (reg, rm)) : rmLen rm ≤ bytes.length := by
  unfold takeModRM at h
  split at h
  next => cases h
  next modrm rest =>
    dsimp only at h
    split_ifs at h
    · cases h
      exact Nat.le_add_left _ _
    · obtain ⟨m, hm, heq⟩ := Option.map_eq_some_iff.1 h
      cases heq
      exact takeMemOp_length hm

@[simp] theorem rmLen_map {ρ σ : Type} (f : ρ → σ) (rm : RM ρ) : rmLen (rm.map f) = rmLen rm := by
  rcases rm with _ | (_ | _ | _ | _) <;> rfl

/-! ### Register numbers of Mode32 (R65, R68) -/

theorem regNum_false_lt (lo : BitVec 3) : (regNum false lo).val < 8 := by
  have := lo.isLt
  simp only [regNum, Bool.toNat_false]
  omega

/-- With the top bit of the inverted field set, `vvvv` names one of registers 0 to 7. -/
theorem vvvvNum_lt {last : Byte} (h : last.getLsbD 6 = true) : (vvvvNum (last.extractLsb' 3 4)).val < 8 := by
  have hfield : 8 ≤ (last.extractLsb' 3 4).toNat := by
    revert last
    decide
  simp only [vvvvNum]
  omega

theorem vregs_map_regNum_false_lt {rm : RM (BitVec 3)} {r : VReg} (h : r ∈ RM.vregs (rm.map (regNum false))) : r.val < 8 := by
  cases rm with
  | reg lo =>
    obtain rfl := List.mem_singleton.1 h
    exact regNum_false_lt lo
  | mem m => exact absurd h List.not_mem_nil

/-- A Mode32 VEX prefix has R = 0 and X = 0, and in the 2-byte form the top bit of `vvvv'` is 1 (R68). -/
theorem isVexNext_mode32 {v1 : Byte} (h : isVexNext .mode32 v1 = true) : v1.getLsbD 7 = true ∧ v1.getLsbD 6 = true := by
  revert v1
  decide

/-! ### The instruction an opcode makes (R60, R61, R72) -/

theorem instrLen_xmmInstr (o : Opc) (p d src) : instrLen (xmmInstr o p d src) = xmmLen p src := by cases o <;> rfl

theorem vregsOf_xmmInstr (o : Opc) (p d src) : vregsOf (xmmInstr o p d src) = d :: RM.vregs src := by cases o <;> rfl

theorem instrLen_vexInstr (o : Opc) (l : Bool) (p d s1 src) : instrLen (vexInstr o l p d s1 src) = vexLen p src := by
  cases o <;> cases l <;> rfl

theorem vregsOf_vexInstr (o : Opc) (l : Bool) (p d s1 src) : vregsOf (vexInstr o l p d s1 src) = d :: s1 :: RM.vregs src := by
  cases o <;> cases l <;> rfl

theorem mmInstr_some {o : Opc} {p d src} {i : Instr} (h : mmInstr o p d src = some i) :
    instrLen i = mmLen p src ∧ vregsOf i = [] := by
  cases o with
  | bw | wd | dq => cases h; exact ⟨rfl, rfl⟩
  | qdq => cases h

/-! ### A decoded instruction fits its bytes and its mode (R22, R65, R73) -/

/-- The instruction takes at most `n` bytes and names only vector registers of mode `m`. -/
def Fits (m : Mode) (n : Nat) (i : Instr) : Prop := instrLen i ≤ n ∧ ∀ r ∈ vregsOf i, r.val < vregCount m

theorem Fits.mono {m : Mode} {n k : Nat} {i : Instr} (h : Fits m n i) (hk : n ≤ k) : Fits m k i :=
  ⟨h.1.trans hk, h.2⟩

/-- In Mode64 every register number is one of the mode's; so only Mode32 asks anything of the decoder. -/
theorem fits_of_mode32 {m : Mode} {n : Nat} {i : Instr} (hlen : instrLen i ≤ n)
    (h : m = .mode32 → ∀ r ∈ vregsOf i, r.val < 8) : Fits m n i := by
  cases m with
  | mode64 => exact ⟨hlen, fun r _ => r.isLt⟩
  | mode32 => exact ⟨hlen, h rfl⟩

theorem legacyForm_fits {m : Mode} {pfx : List Byte} {rex : Option Byte} {o : Opc} {reg : BitVec 3} {rm : RM (BitVec 3)}
    {i : Instr} (h : legacyForm pfx rex o reg rm = .instr i) (hrex : m = .mode32 → rex = none) :
    Fits m (pfx.length + rex.toList.length + 2 + rmLen rm) i := by
  unfold legacyForm at h
  dsimp only at h
  split_ifs at h with h66
  · cases h
    have hpfx : 0 < pfx.length := List.length_pos_of_mem (List.contains_iff_mem.1 h66)
    refine fits_of_mode32 ?_ fun hm r hr => ?_
    · simp only [instrLen_xmmInstr, xmmLen, rmLen_map, Option.isSome_map, Option.length_toList]
      omega
    · obtain rfl := hrex hm
      rw [vregsOf_xmmInstr] at hr
      obtain rfl | hsrc := List.mem_cons.1 hr
      · exact regNum_false_lt reg
      · exact vregs_map_regNum_false_lt hsrc
  · split at h
    next j hj =>
      cases h
      obtain ⟨hlen, hregs⟩ := mmInstr_some hj
      refine ⟨?_, by simp [hregs]⟩
      simp only [hlen, mmLen, rmLen_map, Option.isSome_map, Option.length_toList]
      omega
    next => cases h

theorem decodeLegacy_fits {m : Mode} {pfx : List Byte} {rex : Option Byte} {bytes : List Byte} {i : Instr}
    (h : decodeLegacy pfx rex bytes = .instr i) (hrex : m = .mode32 → rex = none) :
    Fits m (pfx.length + rex.toList.length + 1 + bytes.length) i := by
  unfold decodeLegacy at h
  split at h
  next => cases h
  next op rest =>
    split at h
    next => cases h
    next o =>
      split_ifs at h
      split at h
      next => cases h
      next reg rm hrm =>
        have := takeModRM_length hrm
        refine (legacyForm_fits h hrex).mono ?_
        simp only [List.length_cons]
        omega

theorem decodeVex_fits {m : Mode} {pfx : List Byte} {rexPresent r : Bool} {mmmmm : BitVec 5} {p : VexPfx} {last : Byte}
    {bytes : List Byte} {i : Instr} (h : decodeVex m pfx rexPresent r mmmmm p last bytes = .instr i)
    (hr : m = .mode32 → r = false) : Fits m ((if p.isSome then 3 else 2) + bytes.length) i := by
  unfold decodeVex at h
  split at h
  next => cases h
  next op rest =>
    split at h
    next => cases h
    next o =>
      split_ifs at h with _ _ _ hreserved
      split at h
      next => cases h
      next reg rm hrm =>
        cases h
        have hlen := takeModRM_length hrm
        refine fits_of_mode32 ?_ fun hm q hq => ?_
        · simp only [instrLen_vexInstr, vexLen, rmLen_map, List.length_cons]
          omega
        · have hb : ExtBits.bOf p = false := by simpa using fun hb => hreserved ⟨hm, .inl hb⟩
          have hv : last.getLsbD 6 = true := by simpa using fun hv => hreserved ⟨hm, .inr hv⟩
          rw [vregsOf_vexInstr, hr hm, hb] at hq
          obtain rfl | hq := List.mem_cons.1 hq
          · exact regNum_false_lt reg
          obtain rfl | hsrc := List.mem_cons.1 hq
          · exact vvvvNum_lt hv
          · exact vregs_map_regNum_false_lt hsrc

/-- In Mode32 the byte after C4H or C5H gives R = 0. -/
theorem vexR_false {m : Mode} {v1 : Byte} (h : isVexNext m v1 = true) (hm : m = .mode32) : (!v1.getLsbD 7) = false := by
  subst hm
  rw [(isVexNext_mode32 h).1, Bool.not_true]

theorem decodeOpcode_fits {m : Mode} {pfx : List Byte} {rex : Option Byte} {b : Byte} {bytes : List Byte} {i : Instr}
    (h : decodeOpcode m pfx rex b bytes = .instr i) (hrex : m = .mode32 → rex = none) :
    Fits m (pfx.length + rex.toList.length + 1 + bytes.length) i := by
  unfold decodeOpcode at h
  split_ifs at h
  · exact decodeLegacy_fits h hrex
  · split at h
    next => cases h
    next v1 rest =>
      split_ifs at h with hnext
      refine (decodeVex_fits h (vexR_false hnext)).mono ?_
      simp only [Option.isSome_none, Bool.false_eq_true, if_false, List.length_cons]
      omega
  · split at h
    next => cases h
    next v1 rest =>
      split_ifs at h with hnext
      split at h
      next => cases h
      next v2 rest' =>
        refine (decodeVex_fits h (vexR_false hnext)).mono ?_
        simp only [Option.isSome_some, if_true, List.length_cons]
        omega

theorem decodeAfterPrefixes_fits {m : Mode} {pfx bytes : List Byte} {i : Instr}
    (h : decodeAfterPrefixes m pfx bytes = .instr i) : Fits m (pfx.length + bytes.length) i := by
  unfold decodeAfterPrefixes at h
  split at h
  next => cases h
  next b rest =>
    split_ifs at h with hrex
    · split at h
      next => cases h
      next c rest' =>
        split_ifs at h
        refine (decodeOpcode_fits h fun hm => ?_).mono ?_
        · exact absurd (hrex.1.symm.trans hm) nofun
        · simp only [Option.toList_some, List.length_cons, List.length_nil]
          omega
    · refine (decodeOpcode_fits h fun _ => rfl).mono ?_
      simp only [Option.toList_none, List.length_nil, List.length_cons]
      omega

/-- A decoded instruction takes no more bytes than there are, and names only registers of its mode. -/
theorem decode_fits {m : Mode} {bytes : List Byte} {i : Instr} (h : decode m bytes = .instr i) : Fits m bytes.length i := by
  have hsplit : (bytes.takeWhile isLegacyPrefix).length + (bytes.dropWhile isLegacyPrefix).length = bytes.length := by
    rw [← List.length_append, List.takeWhile_append_dropWhile]
  exact hsplit ▸ decodeAfterPrefixes_fits h

/-! ### The vector registers of the mode (R22) -/

theorem hasYmm_iff_of_inv {s : State} (h : Inv s) (r : VReg) : s.hasYmm r = true ↔ r.val < vregCount s.env.mode := by
  obtain ⟨-, -, -, -, hsize⟩ := h
  rw [hasYmm_iff, hsize]

/-- Settles O50: the invariant gives the file its mode's size, and the decoder keeps within it. -/
theorem vectorRegistersAreTheModes : Obligations.VectorRegistersAreTheModes := by
  intro s hinv
  refine ⟨fun hm r => ?_, fun hm r => ?_, fun bytes i hdec r hr => ?_⟩
  · rw [hasYmm_iff_of_inv hinv, hm]
    exact r.isLt
  · rw [hasYmm_iff_of_inv hinv, hm, vregCount]
  · obtain ⟨-, hregs⟩ := decode_fits hdec
    exact (hasYmm_iff_of_inv hinv r).2 (hregs r hr)

/-! ### The invariant is kept (R24, R182, R184) -/

/-- While it stays below the top of the address space, pc moves on from the program's base by what is added to it. -/
theorem pcOffset_advance {s : State} {n : Nat} (h : pcOffset s + n ≤ addrTop s.env.mode) :
    pcOffset (s.advance n) = pcOffset s + n := by
  cases hm : s.env.mode with
  | mode64 =>
    simp only [pcOffset, advance_pc, advance_env, advance_base, nextPc, hm, truncAddr, addrTop] at h ⊢
    bv_omega
  | mode32 =>
    simp only [pcOffset, advance_pc, advance_env, advance_base, nextPc, hm, truncAddr, addrTop, BitVec.toNat_setWidth,
      BitVec.toNat_sub, BitVec.toNat_add, BitVec.toNat_ofNat] at h ⊢
    omega

theorem truncAddr_mode32_lt (a : Addr) : (truncAddr .mode32 a).toNat < 2 ^ 32 := by
  simp only [truncAddr, BitVec.toNat_setWidth]
  omega

theorem inv_writeMm {s : State} (h : Inv s) (d : MmReg) (v : BitVec 64) : Inv (s.writeMm d v) := h

theorem inv_writeYmm {s : State} (h : Inv s) (d : VReg) (v : BitVec 256) : Inv (s.writeYmm d v) := by
  obtain ⟨hmem, hlaunch, hoff, hpc, hsize⟩ := h
  exact ⟨hmem, hlaunch, hoff, hpc, (size_write s.ymm d v).trans hsize⟩

theorem inv_advance {s : State} {n : Nat} (h : Inv s) (hn : pcOffset s + n ≤ s.program.length) : Inv (s.advance n) := by
  obtain ⟨hmem, hlaunch, -, -, hsize⟩ := h
  have htop : s.base.toNat + s.program.length ≤ addrTop s.env.mode := of_decide_eq_true hlaunch
  refine ⟨hmem, hlaunch, ?_, fun hm => ?_, hsize⟩
  · rw [pcOffset_advance (by omega)]
    exact hn
  · rw [advance_env] at hm
    rw [advance_pc, nextPc, hm]
    exact truncAddr_mode32_lt _

/-- Settles O46: the instruction at pc ends within the program, and its one write keeps memory and the size of the vector file. -/
theorem stepKeepsTheInvariant : Obligations.StepKeepsTheInvariant := by
  intro s t hinv hstep
  obtain ⟨i, hfetch, hexec⟩ := step_next hstep
  obtain ⟨hpc, hdec⟩ := fetch_ok hfetch
  have hend : pcOffset s + instrLen i ≤ s.program.length := by
    obtain ⟨hlen, -⟩ := decode_fits hdec
    rw [List.length_drop] at hlen
    omega
  obtain ⟨d, v, rfl, -⟩ | ⟨d, v, rfl, -, -⟩ := exec_next hexec
  · exact inv_advance (inv_writeMm hinv d v) hend
  · exact inv_advance (inv_writeYmm hinv d v) hend

/-! ### Writing a vector register that an instruction does not name -/

theorem write_comm {f : YmmFile} {i r : VReg} (u v : BitVec 256) (h : r ≠ i) :
    (f.write r v).write i u = (f.write i u).write r v := by
  have hne : r.val ≠ i.val := fun e => h (Fin.ext e)
  cases f with
  | sixteen a => exact congrArg YmmFile.sixteen (Vector.set_comm _ _ hne)
  | eight a => exact congrArg YmmFile.eight (Vector.setIfInBound_comm _ _ hne)

theorem writeYmm_comm (s : State) {i r : VReg} (u v : BitVec 256) (h : r ≠ i) :
    (s.writeYmm r v).writeYmm i u = (s.writeYmm i u).writeYmm r v := by
  simp only [State.writeYmm, write_comm u v h]

theorem writeXmmKeepUpper_comm (s : State) {i r : VReg} (u : BitVec 128) (v : BitVec 256) (h : r ≠ i) :
    (s.writeYmm r v).writeXmmKeepUpper i u = (s.writeXmmKeepUpper i u).writeYmm r v := by
  simp only [State.writeXmmKeepUpper, readYmm_writeYmm_other s v (Ne.symm h), writeYmm_comm s _ v h]

theorem writeXmmZeroUpper_comm (s : State) {i r : VReg} (u : BitVec 128) (v : BitVec 256) (h : r ≠ i) :
    (s.writeYmm r v).writeXmmZeroUpper i u = (s.writeXmmZeroUpper i u).writeYmm r v :=
  writeYmm_comm s _ v h

/-- A memory operand is read without the vector registers. -/
theorem loadOperand_writeYmm (s : State) (r : VReg) (v len m n align ac) :
    loadOperand (s.writeYmm r v) len m n align ac = loadOperand s len m n align ac := rfl

theorem readYmmM256_writeYmm {s : State} {r : VReg} {src : RM VReg} (v len) (h : r ∉ RM.vregs src) :
    readYmmM256 (s.writeYmm r v) len src = readYmmM256 s len src := by
  cases src with
  | reg q => exact congrArg Except.ok (readYmm_writeYmm_other s v (List.ne_of_not_mem_cons h).symm)
  | mem m => exact loadOperand_writeYmm s r v len m 32 1 1

theorem readXmm_writeYmm_other (s : State) {i r : VReg} (v) (h : r ≠ i) : (s.writeYmm i v).readXmm r = s.readXmm r := by
  simp only [State.readXmm, readYmm_writeYmm_other s v h]

theorem readXmmM128_writeYmm {s : State} {r : VReg} {src : RM VReg} (v len align) (h : r ∉ RM.vregs src) :
    readXmmM128 (s.writeYmm r v) len align src = readXmmM128 s len align src := by
  cases src with
  | reg q => exact congrArg Except.ok (readXmm_writeYmm_other s v (List.ne_of_not_mem_cons h).symm)
  | mem m => exact loadOperand_writeYmm s r v len m 16 align 1

theorem readMmM32_writeYmm (s : State) (r : VReg) (v len src) : readMmM32 (s.writeYmm r v) len src = readMmM32 s len src := by
  cases src with
  | reg q => rfl
  | mem m => exact loadOperand_writeYmm s r v len m 4 1 4

theorem execMmx_writeYmm {f p d src} {s t : State} {r : VReg} (v) (h : execMmx f p d src s = .next t) :
    execMmx f p d src (s.writeYmm r v) = .next (t.writeYmm r v) := by
  obtain ⟨hcheck, u, hsrc, rfl⟩ := complete_next.1 h
  exact complete_next.2 ⟨hcheck, u, (readMmM32_writeYmm s r v _ src).trans hsrc, rfl⟩

theorem execSse_writeYmm {f p d src} {s t : State} {r : VReg} (v) (hr : r ∉ d :: RM.vregs src)
    (h : execSse f p d src s = .next t) : execSse f p d src (s.writeYmm r v) = .next (t.writeYmm r v) := by
  obtain ⟨hd, hsrc⟩ := List.ne_and_not_mem_of_not_mem_cons hr
  obtain ⟨hcheck, u, hread, rfl⟩ := complete_next.1 h
  refine complete_next.2 ⟨hcheck, u, (readXmmM128_writeYmm v _ _ hsrc).trans hread, ?_⟩
  rw [readXmm_writeYmm_other s v (Ne.symm hd), writeXmmKeepUpper_comm s _ v hd]
  rfl

theorem execVex128_writeYmm {f p d s1 src} {s t : State} {r : VReg} (v) (hr : r ∉ d :: s1 :: RM.vregs src)
    (h : execVex128 f p d s1 src s = .next t) : execVex128 f p d s1 src (s.writeYmm r v) = .next (t.writeYmm r v) := by
  obtain ⟨hd, hr⟩ := List.ne_and_not_mem_of_not_mem_cons hr
  obtain ⟨hs1, hsrc⟩ := List.ne_and_not_mem_of_not_mem_cons hr
  obtain ⟨hcheck, u, hread, rfl⟩ := complete_next.1 h
  refine complete_next.2 ⟨hcheck, u, (readXmmM128_writeYmm v _ _ hsrc).trans hread, ?_⟩
  rw [readXmm_writeYmm_other s v (Ne.symm hs1), writeXmmZeroUpper_comm s _ v hd]
  rfl

theorem execVex256_writeYmm {f p d s1 src} {s t : State} {r : VReg} (v) (hr : r ∉ d :: s1 :: RM.vregs src)
    (h : execVex256 f p d s1 src s = .next t) : execVex256 f p d s1 src (s.writeYmm r v) = .next (t.writeYmm r v) := by
  obtain ⟨hd, hr⟩ := List.ne_and_not_mem_of_not_mem_cons hr
  obtain ⟨hs1, hsrc⟩ := List.ne_and_not_mem_of_not_mem_cons hr
  obtain ⟨hcheck, u, hread, rfl⟩ := complete_next.1 h
  refine complete_next.2 ⟨hcheck, u, (readYmmM256_writeYmm v _ hsrc).trans hread, ?_⟩
  rw [readYmm_writeYmm_other s v (Ne.symm hs1), writeYmm_comm s _ v hd]
  rfl

/-- A vector register that an instruction does not name is neither read nor written by it: writing it before the instruction
completes is the same as writing it after. -/
theorem exec_writeYmm_of_not_named {i : Instr} {s t : State} {r : VReg} (v) (hr : r ∉ vregsOf i) (h : exec i s = .next t) :
    exec i (s.writeYmm r v) = .next (t.writeYmm r v) := by
  cases i with
  | punpcklbwMm | punpcklwdMm | punpckldqMm => exact execMmx_writeYmm v h
  | punpcklbwXmm | punpcklwdXmm | punpckldqXmm | punpcklqdqXmm => exact execSse_writeYmm v hr h
  | vpunpcklbwXmm | vpunpcklwdXmm | vpunpckldqXmm | vpunpcklqdqXmm => exact execVex128_writeYmm v hr h
  | vpunpcklbwYmm | vpunpcklwdYmm | vpunpckldqYmm | vpunpcklqdqYmm => exact execVex256_writeYmm v hr h

theorem exec_readYmm_of_not_named {i : Instr} {s t : State} {r : VReg} (hr : r ∉ vregsOf i) (h : exec i s = .next t) :
    t.readYmm r = s.readYmm r := by
  obtain ⟨d, v, rfl, -⟩ | ⟨d, v, rfl, -, hd⟩ := exec_next h
  · rfl
  · exact readYmm_writeYmm_other s v fun heq => hr (heq ▸ hd)

/-- The program is no vector register's, so a fetch does not see one. -/
theorem fetch_writeYmm (s : State) (r : VReg) (v) : fetch (s.writeYmm r v) = fetch s := rfl

/-- The vector registers a Mode32 instruction names are below 8. -/
theorem not_named_of_fetch_mode32 {s : State} {i : Instr} {r : VReg} (hm : s.env.mode = .mode32)
    (h : fetch s = .ok (.instr i)) (hr : 8 ≤ r.val) : r ∉ vregsOf i := fun hmem => by
  obtain ⟨-, hdec⟩ := fetch_ok h
  rw [hm] at hdec
  obtain ⟨-, hregs⟩ := decode_fits hdec
  exact absurd (hregs r hmem) (Nat.not_lt.2 hr)

theorem hasYmm_high_of_inv_mode32 {s : State} (h : Inv s) (hm : s.env.mode = .mode32) {r : VReg} (hr : 8 ≤ r.val) :
    s.hasYmm r = false := by
  rw [Bool.eq_false_iff, Ne, hasYmm_iff_of_inv h, hm]
  exact Nat.not_lt.2 hr

theorem step_mode {s t : State} (h : step s = .next t) : t.env.mode = s.env.mode := by
  obtain ⟨i, -, hexec⟩ := step_next h
  obtain ⟨d, v, rfl, -⟩ | ⟨d, v, rfl, -, -⟩ := exec_next hexec
  · rfl
  · rfl

/-- Settles O45: a Mode32 step runs an instruction that names none of the registers 8 to 15, and the invariant, which the step
keeps, says that they are not there. -/
theorem mode32StepKeepsHighRegisters : Obligations.Mode32StepKeepsHighRegisters := by
  intro s t hm hstep
  obtain ⟨i, hfetch, hexec⟩ := step_next hstep
  have hnot : ∀ r : VReg, 8 ≤ r.val → r ∉ vregsOf i := fun r => not_named_of_fetch_mode32 hm hfetch
  refine ⟨fun hinv r hr => ⟨?_, ?_⟩, fun r hr => exec_readYmm_of_not_named (hnot r hr) hexec, fun r v hr => ?_⟩
  · exact hasYmm_high_of_inv_mode32 hinv hm hr
  · exact hasYmm_high_of_inv_mode32 (stepKeepsTheInvariant s t hinv hstep) ((step_mode hstep).trans hm) hr
  · have hfetch' : fetch (s.writeYmm r v) = .ok (.instr i) := (fetch_writeYmm s r v).trans hfetch
    exact (Scope.step_of_fetch_instr hfetch').trans (exec_writeYmm_of_not_named v (hnot r hr) hexec)

end Sys2Proof.Proofs.MachineState
end

section
/-! SUPPORT. Proofs of the statements of 20_memory.md: the order of the access check and its flat `Access`, what a register form and
a memory form read, and the faults of a memory operand. -/

namespace Sys2Proof.Proofs.MemoryAccess

open Sys2Proof Sys2Proof.Machine

/-! ### `MemRead` is little-endian (R42) -/

/-- Byte `k` of a value read is the byte at `la + k`: byte 0 is the low byte, and the bytes above it are a read from `la + 1`. -/
theorem memRead_byte {m : Mode} {mem : Memory} {la : Addr} {n k : Nat} (hk : k < n) :
    (memRead m mem la n).extractLsb' (8 * k) 8 = mem.read (operandByteAddr m la k) := by
  induction n generalizing la k with
  | zero => exact absurd hk k.not_lt_zero
  | succ n ih =>
    rw [memRead, BitVec.extractLsb'_cast]
    cases k with
    | zero => exact BitVec.extractLsb'_append_eq_right
    | succ k =>
      rw [BitVec.extractLsb'_append_eq_of_le (by omega), Nat.mul_succ, Nat.add_sub_cancel, ih (Nat.lt_of_succ_lt_succ hk),
        Scope.operandByteAddr_add_one]

/-- Settles O9, by induction on the number of bytes. -/
theorem memReadIsLittleEndian : Obligations.MemReadIsLittleEndian := fun _ _ _ _ _ => memRead_byte

/-! ### The access check (R47) -/

section CheckRead

variable {A : Access} {env : Env} {seg : Seg} {ea la : Addr} {n align ac : Nat}

theorem checkRead_segment_fault (hseg : A.segment env seg ea n = .fault) :
    checkRead A env seg ea n align ac = .error (segFault seg) := by
  simp only [checkRead, hseg]

theorem checkRead_misaligned (hseg : A.segment env seg ea n = .linear la) (halign : 1 < align) (hmis : la.toNat % align ≠ 0) :
    checkRead A env seg ea n align ac = .error .gp := by
  simp only [checkRead, hseg, if_pos (And.intro halign hmis)]

theorem checkRead_page_fault {code : Nat} {linear : Addr} (hseg : A.segment env seg ea n = .linear la)
    (halign : 1 < align → la.toNat % align = 0) (hpage : A.page env la n = .fault code linear) :
    checkRead A env seg ea n align ac = .error (.pf code linear) := by
  simp only [checkRead, hseg, hpage, if_neg (not_and_not_right.2 halign)]

theorem checkRead_alignment_check (hseg : A.segment env seg ea n = .linear la) (halign : 1 < align → la.toNat % align = 0)
    (hpage : A.page env la n = .ok) (hac : 1 < ac) (henabled : env.acEnabled = true) (hmis : la.toNat % ac ≠ 0) :
    checkRead A env seg ea n align ac = .error .ac := by
  have hfails : 1 < ac ∧ env.acEnabled = true ∧ la.toNat % ac ≠ 0 := ⟨hac, henabled, hmis⟩
  simp only [checkRead, hseg, hpage, if_neg (not_and_not_right.2 halign), if_pos hfails]

/-- The access check answers an address exactly when each of its four checks passes. -/
theorem checkRead_ok_iff : checkRead A env seg ea n align ac = .ok la ↔
    A.segment env seg ea n = .linear la ∧ (1 < align → la.toNat % align = 0) ∧ A.page env la n = .ok ∧
      (1 < ac → env.acEnabled = true → la.toNat % ac = 0) := by
  constructor
  · intro h
    unfold checkRead at h
    split at h
    next => cases h
    next la' hseg =>
      split at h
      next => cases h
      next halign =>
        split at h
        next => cases h
        next hpage =>
          split at h
          next => cases h
          next hac =>
            cases h
            exact ⟨hseg, by simpa using halign, hpage, by simpa using hac⟩
  · rintro ⟨hseg, halign, hpage, hac⟩
    have hchecked : ¬ (1 < ac ∧ env.acEnabled = true ∧ la.toNat % ac ≠ 0) := fun h => h.2.2 (hac h.1 h.2.1)
    simp only [checkRead, hseg, hpage, if_neg (not_and_not_right.2 halign), if_neg hchecked]

end CheckRead

/-- Settles O11: one clause for each branch of the access check. -/
theorem checkReadFollowsItsOrder : Obligations.CheckReadFollowsItsOrder := fun _ _ _ _ _ _ _ _ =>
  ⟨checkRead_ok_iff, checkRead_segment_fault, checkRead_segment_fault, checkRead_misaligned,
    fun _ _ => checkRead_page_fault, checkRead_alignment_check⟩

/-! ### The flat `Access` (R47; log 7, log 8) -/

/-- Bits 63:47 are all 0 below `2^47`, and all 1 from `2^64 - 2^47` on. -/
theorem canonical_iff {a : Addr} : canonical a = true ↔ a.toNat < 2 ^ 47 ∨ 2 ^ 64 - 2 ^ 47 ≤ a.toNat := by
  simp only [canonical, Bool.or_eq_true, decide_eq_true_eq, BitVec.toNat_eq, BitVec.extractLsb'_toNat, BitVec.toNat_ofNat,
    BitVec.toNat_allOnes, Nat.shiftRight_eq_div_pow]
  have hlt := a.isLt
  omega

theorem flatSegment_mode64 {env : Env} {seg : Seg} {ea : Addr} {n : Nat} (hm : env.mode = .mode64) :
    flatSegment env seg ea n = if ea.toNat < 2 ^ 47 ∨ 2 ^ 64 - 2 ^ 47 ≤ ea.toNat then .linear ea else .fault := by
  simp only [flatSegment, hm, canonical_iff]

theorem flatSegment_mode32 {env : Env} {seg : Seg} {ea : Addr} {n : Nat} (hm : env.mode = .mode32) :
    flatSegment env seg ea n = if ea.toNat + n ≤ 2 ^ 32 then .linear ea else .fault := by
  have hlast : ea.toNat + n - 1 ≤ 0xFFFFFFFF ↔ ea.toNat + n ≤ 2 ^ 32 := by omega
  simp only [flatSegment, hm, hlast]

theorem allocated_iff {alloc : List Region} {a : Nat} :
    allocated alloc a = true ↔ ∃ r ∈ alloc, r.first ≤ a ∧ a < r.first + r.size := by
  simp [allocated]

theorem missingBytes_eq_nil_iff {m : Mode} {alloc : List Region} {la : Addr} {n : Nat} :
    missingBytes m alloc la n = [] ↔ ∀ k, k < n → allocated alloc (operandByteAddr m la k) = true := by
  simp [missingBytes]

theorem flatPage_ok_iff {alloc : List Region} {env : Env} {la : Addr} {n : Nat} :
    flatPage alloc env la n = .ok ↔ ∀ k, k < n → allocated alloc (operandByteAddr env.mode la k) = true := by
  rw [← missingBytes_eq_nil_iff, flatPage]
  cases missingBytes env.mode alloc la n <;> simp

/-- The lowest byte of an operand that is not allocated heads the list of the missing ones. -/
theorem missingBytes_eq_cons {m : Mode} {alloc : List Region} {la : Addr} {n k : Nat} (hk : k < n)
    (hmissing : allocated alloc (operandByteAddr m la k) = false)
    (hbelow : ∀ j, j < k → allocated alloc (operandByteAddr m la j) = true) :
    ∃ rest, missingBytes m alloc la n = k :: rest := by
  obtain ⟨d, rfl⟩ := Nat.exists_eq_add_of_lt hk
  have hnone : missingBytes m alloc la k = [] := missingBytes_eq_nil_iff.2 hbelow
  rw [missingBytes] at hnone
  rw [missingBytes, Nat.add_assoc, List.range_add, List.filter_append, hnone, List.range_succ_eq_map]
  simp [hmissing]

theorem flatPage_fault {alloc : List Region} {env : Env} {la : Addr} {n k : Nat} (hk : k < n)
    (hmissing : allocated alloc (operandByteAddr env.mode la k) = false)
    (hbelow : ∀ j, j < k → allocated alloc (operandByteAddr env.mode la j) = true) :
    flatPage alloc env la n =
      .fault (Config.pageFaultCode env la n) (BitVec.ofNat 64 (operandByteAddr env.mode la k)) := by
  obtain ⟨rest, hlist⟩ := missingBytes_eq_cons hk hmissing hbelow
  rw [flatPage, hlist]

/-- Settles O12: the segment check by modes, and the page check by the list of missing bytes. -/
theorem flatAccessAnswers : Obligations.FlatAccessAnswers := by
  intro env seg ea la alloc n
  refine ⟨fun hm => ⟨fun h => ?_, fun h => ?_⟩, fun hm _ => ⟨fun h => ?_, fun h => ?_⟩, ?_⟩
  · rw [flatSegment_mode64 hm, if_pos h]
  · rw [flatSegment_mode64 hm, if_neg h]
  · rw [flatSegment_mode32 hm, if_pos h]
  · rw [flatSegment_mode32 hm, if_neg (Nat.not_le.2 h)]
  · simp only [flatPage_ok_iff, allocated_iff]

/-! ### Register forms make no data access (R40) -/

/-- The outcome `o'` is the outcome `o` with its next state changed by `g`: both complete, or both raise the same fault. -/
def Follows (g : State → State) (o o' : Host.Outcome State Fault Refusal) : Prop :=
  (∀ t, o = .next t → o' = .next (g t)) ∧ ∀ f, o = .fault f → o' = .fault f

/-- With the same checks and the same operand, what `g` does before the instruction it may do after it, if `g` keeps pc and may be
done after the writes. -/
theorem complete_follows {α : Type} {check : Option Exc} {operand : Except Exc α} {write write' : α → State} {s : State}
    {g : State → State} (hpc : (g s).pc = s.pc) (hwrite : ∀ v, write' v = g (write v)) :
    Follows g (complete check operand write s) (complete check operand write' (g s)) := by
  constructor
  · intro t h
    obtain ⟨hcheck, v, hv, rfl⟩ := complete_next.1 h
    exact complete_next.2 ⟨hcheck, v, hv, (hwrite v).symm⟩
  · intro f h
    obtain ⟨e, rfl, he⟩ := complete_fault.1 h
    exact complete_fault.2 ⟨e, by rw [hpc], he⟩

/-- Another memory, another allocated set and another `Access`. -/
def withData (mem : Memory) (alloc : List Region) (segs : List SegRow) (pages : List PageRow) (s : State) : State :=
  { s with mem := mem, alloc := alloc, segAnswers := segs, pageAnswers := pages }

theorem memOp_eq_none {ρ : Type} {src : RM ρ} (h : RM.memOp src = none) : ∃ r, src = .reg r := by
  cases src with
  | reg r => exact ⟨r, rfl⟩
  | mem m => cases h

section WithData

variable {mem : Memory} {alloc : List Region} {segs : List SegRow} {pages : List PageRow} {s : State}

theorem execMmx_reg_follows {f p d r} :
    Follows (withData mem alloc segs pages) (execMmx f p d (.reg r) s) (execMmx f p d (.reg r) (withData mem alloc segs pages s)) :=
  complete_follows rfl fun _ => rfl

theorem execSse_reg_follows {f p d r} :
    Follows (withData mem alloc segs pages) (execSse f p d (.reg r) s) (execSse f p d (.reg r) (withData mem alloc segs pages s)) :=
  complete_follows rfl fun _ => rfl

theorem execVex128_reg_follows {f p d s1 r} : Follows (withData mem alloc segs pages) (execVex128 f p d s1 (.reg r) s)
    (execVex128 f p d s1 (.reg r) (withData mem alloc segs pages s)) :=
  complete_follows rfl fun _ => rfl

theorem execVex256_reg_follows {f p d s1 r} : Follows (withData mem alloc segs pages) (execVex256 f p d s1 (.reg r) s)
    (execVex256 f p d s1 (.reg r) (withData mem alloc segs pages s)) :=
  complete_follows rfl fun _ => rfl

theorem exec_reg_follows {i : Instr} (h : memOpOf i = none) :
    Follows (withData mem alloc segs pages) (exec i s) (exec i (withData mem alloc segs pages s)) := by
  cases i with
  | punpcklbwMm p d src | punpcklwdMm p d src | punpckldqMm p d src =>
    obtain ⟨r, rfl⟩ := memOp_eq_none h
    exact execMmx_reg_follows
  | punpcklbwXmm p d src | punpcklwdXmm p d src | punpckldqXmm p d src | punpcklqdqXmm p d src =>
    obtain ⟨r, rfl⟩ := memOp_eq_none h
    exact execSse_reg_follows
  | vpunpcklbwXmm p d s1 src | vpunpcklwdXmm p d s1 src | vpunpckldqXmm p d s1 src | vpunpcklqdqXmm p d s1 src =>
    obtain ⟨r, rfl⟩ := memOp_eq_none h
    exact execVex128_reg_follows
  | vpunpcklbwYmm p d s1 src | vpunpcklwdYmm p d s1 src | vpunpckldqYmm p d s1 src | vpunpcklqdqYmm p d s1 src =>
    obtain ⟨r, rfl⟩ := memOp_eq_none h
    exact execVex256_reg_follows

end WithData

/-- Settles O29: a register operand is read from the registers alone, so data memory and `Access` pass through unread. -/
theorem registerFormsMakeNoDataAccess : Obligations.RegisterFormsMakeNoDataAccess := by
  intro i s t mem alloc segs pages h
  obtain ⟨hnext, hfault⟩ : Follows (withData mem alloc segs pages) (exec i s) _ := exec_reg_follows h
  exact ⟨hnext t, hfault⟩

/-! ### The operand bytes that an interleave reads (R43) -/

/-- `v` and `v'` have the same byte `k`, for each `k` in the list. -/
def SameBytes {n : Nat} (ks : List Nat) (v v' : BitVec n) : Prop :=
  ∀ k ∈ ks, v.extractLsb' (8 * k) 8 = v'.extractLsb' (8 * k) 8

/-- The result of `f` shows exactly the bytes `ks` of its second source. -/
def SeesBytes {l n : Nat} (ks : List Nat) (f : BitVec l → BitVec n → BitVec l) : Prop :=
  ∀ a v v', f a v = f a v' ↔ SameBytes ks v v'

theorem sameBytes_append {n : Nat} {ks ls : List Nat} {v v' : BitVec n} :
    SameBytes (ks ++ ls) v v' ↔ SameBytes ks v v' ∧ SameBytes ls v v' :=
  List.forall_mem_append

theorem sameBytes_perm {n : Nat} {ks ls : List Nat} {v v' : BitVec n} (h : ks.Perm ls) :
    SameBytes ks v v' ↔ SameBytes ls v v' := by
  simp only [SameBytes, h.mem_iff]

theorem extractLsb'_byte {n : Nat} (v : BitVec n) {lo count k : Nat} (hk : k < count) :
    (v.extractLsb' (8 * lo) (8 * count)).extractLsb' (8 * k) 8 = v.extractLsb' (8 * (lo + k)) 8 := by
  refine BitVec.eq_of_getLsbD_eq fun i hi => ?_
  have hin : 8 * k + i < 8 * count := by omega
  simp [hi, hin, Nat.mul_add, Nat.add_assoc]

/-- A slice of whole bytes is its bytes. -/
theorem slice_eq_iff_sameBytes {n : Nat} {v v' : BitVec n} (lo count : Nat) :
    v.extractLsb' (8 * lo) (8 * count) = v'.extractLsb' (8 * lo) (8 * count) ↔ SameBytes (List.range' lo count) v v' := by
  constructor
  · intro h k hk
    obtain ⟨j, hj, rfl⟩ := List.mem_range'.1 hk
    rw [Nat.one_mul, ← extractLsb'_byte v hj, h, extractLsb'_byte v' hj]
  · intro h
    refine BitVec.eq_of_getLsbD_eq fun i hi => ?_
    have hbyte : v.extractLsb' (8 * (lo + i / 8)) 8 = v'.extractLsb' (8 * (lo + i / 8)) 8 :=
      h _ (List.mem_range'_1.2 (by omega))
    have hbit := congrArg (BitVec.getLsbD · (i % 8)) hbyte
    have hpos : 8 * (lo + i / 8) + i % 8 = 8 * lo + i := by omega
    simpa [hi, hpos, Nat.mod_lt] using hbit

theorem append_eq_append_iff {m n : Nat} {x x' : BitVec m} {y y' : BitVec n} : x ++ y = x' ++ y' ↔ x = x' ∧ y = y' := by
  refine ⟨fun h => ⟨?_, ?_⟩, fun ⟨hx, hy⟩ => hx ▸ hy ▸ rfl⟩
  · simpa only [BitVec.extractLsb'_append_eq_left] using congrArg (BitVec.extractLsb' n m) h
  · simpa only [BitVec.extractLsb'_append_eq_right] using congrArg (BitVec.extractLsb' 0 n) h

theorem cast_append_eq_iff {m n k : Nat} (h : m + n = k) {x x' : BitVec m} {y y' : BitVec n} :
    (x ++ y).cast h = (x' ++ y').cast h ↔ x = x' ∧ y = y' := by
  subst h
  exact append_eq_append_iff

/-! Each listing is a concatenation of slices of its two sources, so two results are equal exactly when the slices of the second
source are, from the highest down; those slices are runs of whole bytes, and together they are the used bytes. -/

theorem interleaveBytes64_seesBytes : SeesBytes (List.range 4) interleaveBytes64 := by
  intro a v v'
  refine (cast_append_eq_iff rfl).trans ?_
  simp only [append_eq_append_iff, slice_eq_iff_sameBytes 3 1, slice_eq_iff_sameBytes 2 1, slice_eq_iff_sameBytes 1 1,
    slice_eq_iff_sameBytes 0 1, and_true, ← sameBytes_append]
  exact sameBytes_perm (by decide)

theorem interleaveWords64_seesBytes : SeesBytes (List.range 4) interleaveWords64 := by
  intro a v v'
  refine (cast_append_eq_iff rfl).trans ?_
  simp only [append_eq_append_iff, slice_eq_iff_sameBytes 2 2, slice_eq_iff_sameBytes 0 2, and_true, ← sameBytes_append]
  exact sameBytes_perm (by decide)

theorem interleaveDwords64_seesBytes : SeesBytes (List.range 4) interleaveDwords64 := by
  intro a v v'
  refine (cast_append_eq_iff rfl).trans ?_
  simp only [slice_eq_iff_sameBytes 0 4, and_true]
  exact sameBytes_perm (by decide)

theorem interleaveBytes_seesBytes : SeesBytes (List.range 8) interleaveBytes := by
  intro a v v'
  refine (cast_append_eq_iff rfl).trans ?_
  simp only [append_eq_append_iff, slice_eq_iff_sameBytes 7 1, slice_eq_iff_sameBytes 6 1, slice_eq_iff_sameBytes 5 1,
    slice_eq_iff_sameBytes 4 1, slice_eq_iff_sameBytes 3 1, slice_eq_iff_sameBytes 2 1, slice_eq_iff_sameBytes 1 1,
    slice_eq_iff_sameBytes 0 1, and_true, ← sameBytes_append]
  exact sameBytes_perm (by decide)

theorem interleaveWords_seesBytes : SeesBytes (List.range 8) interleaveWords := by
  intro a v v'
  refine (cast_append_eq_iff rfl).trans ?_
  simp only [append_eq_append_iff, slice_eq_iff_sameBytes 6 2, slice_eq_iff_sameBytes 4 2, slice_eq_iff_sameBytes 2 2,
    slice_eq_iff_sameBytes 0 2, and_true, ← sameBytes_append]
  exact sameBytes_perm (by decide)

theorem interleaveDwords_seesBytes : SeesBytes (List.range 8) interleaveDwords := by
  intro a v v'
  refine (cast_append_eq_iff rfl).trans ?_
  simp only [append_eq_append_iff, slice_eq_iff_sameBytes 4 4, slice_eq_iff_sameBytes 0 4, and_true, ← sameBytes_append]
  exact sameBytes_perm (by decide)

theorem interleaveQwords_seesBytes : SeesBytes (List.range 8) interleaveQwords := by
  intro a v v'
  refine (cast_append_eq_iff rfl).trans ?_
  simp only [slice_eq_iff_sameBytes 0 8, and_true]
  exact sameBytes_perm (by decide)

theorem interleaveBytes256_seesBytes : SeesBytes (List.range 8 ++ List.range' 16 8) interleaveBytes256 := by
  intro a v v'
  refine (cast_append_eq_iff rfl).trans ?_
  simp only [append_eq_append_iff, slice_eq_iff_sameBytes 23 1, slice_eq_iff_sameBytes 22 1, slice_eq_iff_sameBytes 21 1,
    slice_eq_iff_sameBytes 20 1, slice_eq_iff_sameBytes 19 1, slice_eq_iff_sameBytes 18 1, slice_eq_iff_sameBytes 17 1,
    slice_eq_iff_sameBytes 16 1, slice_eq_iff_sameBytes 7 1, slice_eq_iff_sameBytes 6 1, slice_eq_iff_sameBytes 5 1,
    slice_eq_iff_sameBytes 4 1, slice_eq_iff_sameBytes 3 1, slice_eq_iff_sameBytes 2 1, slice_eq_iff_sameBytes 1 1,
    slice_eq_iff_sameBytes 0 1, and_true, ← sameBytes_append]
  exact sameBytes_perm (by decide)

theorem interleaveWords256_seesBytes : SeesBytes (List.range 8 ++ List.range' 16 8) interleaveWords256 := by
  intro a v v'
  refine (cast_append_eq_iff rfl).trans ?_
  simp only [append_eq_append_iff, slice_eq_iff_sameBytes 22 2, slice_eq_iff_sameBytes 20 2, slice_eq_iff_sameBytes 18 2,
    slice_eq_iff_sameBytes 16 2, slice_eq_iff_sameBytes 6 2, slice_eq_iff_sameBytes 4 2, slice_eq_iff_sameBytes 2 2,
    slice_eq_iff_sameBytes 0 2, and_true, ← sameBytes_append]
  exact sameBytes_perm (by decide)

theorem interleaveDwords256_seesBytes : SeesBytes (List.range 8 ++ List.range' 16 8) interleaveDwords256 := by
  intro a v v'
  refine (cast_append_eq_iff rfl).trans ?_
  simp only [append_eq_append_iff, slice_eq_iff_sameBytes 20 4, slice_eq_iff_sameBytes 16 4, slice_eq_iff_sameBytes 4 4,
    slice_eq_iff_sameBytes 0 4, and_true, ← sameBytes_append]
  exact sameBytes_perm (by decide)

theorem interleaveQwords256_seesBytes : SeesBytes (List.range 8 ++ List.range' 16 8) interleaveQwords256 := by
  intro a v v'
  refine (cast_append_eq_iff rfl).trans ?_
  simp only [append_eq_append_iff, slice_eq_iff_sameBytes 16 8, slice_eq_iff_sameBytes 0 8, and_true, ← sameBytes_append]
  exact sameBytes_perm (by decide)

/-! ### Memory forms (R43 to R47, R110, R120, R130, R140) -/

/-- The pre-checks of a family (R157). -/
def formCheck (env : Env) : Form → Option Exc
  | .mmx => preChecksMmx env
  | .sse => preChecksSse env
  | .vex128 => preChecksVex env env.cpuidAVX
  | .vex256 => preChecksVex env env.cpuidAVX2

/-- The alignment a family requires of its memory operand (R45, R46). -/
def formAlign (env : Env) : Form → Nat
  | .mmx => 1
  | .sse => 16
  | .vex128 => vexM128Align env
  | .vex256 => 1

/-- The alignment a family asks for where alignment checking is in force (R46, R160). -/
def formAlignCheck : Form → Nat
  | .mmx => 4
  | .sse => 1
  | .vex128 => 1
  | .vex256 => 1

/-- `meaning` is that of a memory form of the family `F`, of `len` bytes and with the operand `m`: the family's pre-checks, a load
of the operand, and writes that show exactly the used bytes of what was loaded, whatever memory is, in states that meet `has`. -/
def IsMemForm (F : Form) (len : Nat) (m : MemOp) (has : State → Prop)
    (meaning : State → Host.Outcome State Fault Refusal) : Prop :=
  ∃ write : State → BitVec (8 * operandBytes F) → State,
    (∀ s, meaning s = complete (formCheck s.env F)
      (loadOperand s len m (operandBytes F) (formAlign s.env F) (formAlignCheck F)) (write s) s) ∧
    ∀ s mem v v', has s →
      (write { s with mem := mem } v = { write s v' with mem := mem } ↔ SameBytes (usedBytes F) v v')

theorem writeMm_advance_eq_iff {s : State} {mem : Memory} {d : MmReg} {u v : BitVec 64} {n : Nat} :
    (({ s with mem := mem } : State).writeMm d u).advance n = { (s.writeMm d v).advance n with mem := mem } ↔ u = v := by
  refine ⟨fun h => ?_, fun h => h ▸ rfl⟩
  have hread := congrArg (State.readMm · d) h
  exact (readMm_writeMm_same _ d u).symm.trans (hread.trans (readMm_writeMm_same s d v))

theorem writeYmm_advance_eq_iff {s : State} {mem : Memory} {d : VReg} {u v : BitVec 256} {n : Nat} (hd : s.hasYmm d = true) :
    (({ s with mem := mem } : State).writeYmm d u).advance n = { (s.writeYmm d v).advance n with mem := mem } ↔ u = v := by
  refine ⟨fun h => ?_, fun h => h ▸ rfl⟩
  have hread := congrArg (State.readYmm · d) h
  exact (readYmm_writeYmm_same (s := { s with mem := mem }) u hd).symm.trans (hread.trans (readYmm_writeYmm_same v hd))

theorem joinLanes_eq_iff {hi lo lo' : BitVec 128} : joinLanes hi lo = joinLanes hi lo' ↔ lo = lo' :=
  (cast_append_eq_iff rfl).trans (and_iff_right rfl)

theorem memOp_eq_some {ρ : Type} {src : RM ρ} {m : MemOp} (h : RM.memOp src = some m) : src = .mem m := by
  cases src with
  | reg r => cases h
  | mem m' => cases h; rfl

section Families

variable {m : MemOp}

theorem execMmx_isMemForm {f p d src} {has : State → Prop} (hf : SeesBytes (List.range 4) f) (h : RM.memOp src = some m) :
    IsMemForm .mmx (mmLen p src) m has (execMmx f p d src) := by
  obtain rfl := memOp_eq_some h
  exact ⟨_, fun _ => rfl, fun s mem v v' _ => writeMm_advance_eq_iff.trans (hf _ v v')⟩

theorem execSse_isMemForm {f p d src} {rs : List VReg} (hf : SeesBytes (List.range 8) f) (h : RM.memOp src = some m) :
    IsMemForm .sse (xmmLen p src) m (fun s => ∀ r ∈ d :: rs, s.hasYmm r = true) (execSse f p d src) := by
  obtain rfl := memOp_eq_some h
  exact ⟨_, fun _ => rfl, fun s mem v v' hs =>
    (writeYmm_advance_eq_iff (hs d List.mem_cons_self)).trans (joinLanes_eq_iff.trans (hf _ v v'))⟩

theorem execVex128_isMemForm {f p d s1 src} {rs : List VReg} (hf : SeesBytes (List.range 8) f) (h : RM.memOp src = some m) :
    IsMemForm .vex128 (vexLen p src) m (fun s => ∀ r ∈ d :: rs, s.hasYmm r = true) (execVex128 f p d s1 src) := by
  obtain rfl := memOp_eq_some h
  exact ⟨_, fun _ => rfl, fun s mem v v' hs =>
    (writeYmm_advance_eq_iff (hs d List.mem_cons_self)).trans (joinLanes_eq_iff.trans (hf _ v v'))⟩

theorem execVex256_isMemForm {f p d s1 src} {rs : List VReg} (hf : SeesBytes (List.range 8 ++ List.range' 16 8) f)
    (h : RM.memOp src = some m) :
    IsMemForm .vex256 (vexLen p src) m (fun s => ∀ r ∈ d :: rs, s.hasYmm r = true) (execVex256 f p d s1 src) := by
  obtain rfl := memOp_eq_some h
  exact ⟨_, fun _ => rfl, fun s mem v v' hs => (writeYmm_advance_eq_iff (hs d List.mem_cons_self)).trans (hf _ v v')⟩

end Families

theorem exec_isMemForm {i : Instr} {m : MemOp} (h : memOpOf i = some m) :
    IsMemForm (formOf i) (instrLen i) m (RegistersExist · i) (exec i) := by
  cases i with
  | punpcklbwMm => exact execMmx_isMemForm interleaveBytes64_seesBytes h
  | punpcklwdMm => exact execMmx_isMemForm interleaveWords64_seesBytes h
  | punpckldqMm => exact execMmx_isMemForm interleaveDwords64_seesBytes h
  | punpcklbwXmm => exact execSse_isMemForm interleaveBytes_seesBytes h
  | punpcklwdXmm => exact execSse_isMemForm interleaveWords_seesBytes h
  | punpckldqXmm => exact execSse_isMemForm interleaveDwords_seesBytes h
  | punpcklqdqXmm => exact execSse_isMemForm interleaveQwords_seesBytes h
  | vpunpcklbwXmm => exact execVex128_isMemForm interleaveBytes_seesBytes h
  | vpunpcklwdXmm => exact execVex128_isMemForm interleaveWords_seesBytes h
  | vpunpckldqXmm => exact execVex128_isMemForm interleaveDwords_seesBytes h
  | vpunpcklqdqXmm => exact execVex128_isMemForm interleaveQwords_seesBytes h
  | vpunpcklbwYmm => exact execVex256_isMemForm interleaveBytes256_seesBytes h
  | vpunpcklwdYmm => exact execVex256_isMemForm interleaveWords256_seesBytes h
  | vpunpckldqYmm => exact execVex256_isMemForm interleaveDwords256_seesBytes h
  | vpunpcklqdqYmm => exact execVex256_isMemForm interleaveQwords256_seesBytes h

/-! ### What a result depends on (R43, R44(b)) -/

theorem lt_operandBytes_of_used {F : Form} {k : Nat} (h : k ∈ usedBytes F) : k < operandBytes F := by
  cases F with
  | mmx => exact List.mem_range.1 h
  | sse | vex128 => exact (List.mem_range.1 h).trans (by decide)
  | vex256 =>
    simp only [usedBytes, List.mem_append, List.mem_range, List.mem_range'_1] at h
    rw [operandBytes]
    omega

/-- Two reads of an operand have the same used bytes exactly when the two memories have. -/
theorem sameBytes_memRead_iff {F : Form} {mode : Mode} {mem mem' : Memory} {la : Addr} :
    SameBytes (usedBytes F) (memRead mode mem la (operandBytes F)) (memRead mode mem' la (operandBytes F)) ↔
      ∀ k ∈ usedBytes F, mem.read (operandByteAddr mode la k) = mem'.read (operandByteAddr mode la k) :=
  forall₂_congr fun k hk => by
    rw [memRead_byte (lt_operandBytes_of_used hk), memRead_byte (lt_operandBytes_of_used hk)]

/-- Settles O30: the access check does not look at memory, so both memories load from the same address, and the writes show exactly
the used bytes of what was loaded. -/
theorem resultDependsOnUsedOperandBytes : Obligations.ResultDependsOnUsedOperandBytes := by
  intro i s t m la mem hm hregs hseg
  obtain ⟨write, hexec, hwrite⟩ := exec_isMemForm hm
  refine ⟨fun hnext => ?_, fun f hfault => ?_⟩
  · rw [hexec] at hnext
    obtain ⟨hcheck, v, hload, rfl⟩ := complete_next.1 hnext
    obtain ⟨la', hread, rfl⟩ := loadOperand_ok.1 hload
    obtain ⟨hseg', -⟩ := checkRead_ok_iff.1 hread
    obtain rfl : la = la' := SegAnswer.linear.inj (hseg.symm.trans hseg')
    have hload' := loadOperand_ok (s := { s with mem := mem }).2 ⟨la, hread, rfl⟩
    rw [← sameBytes_memRead_iff, ← hwrite s mem _ _ hregs, hexec, complete_next]
    refine ⟨fun ⟨_, v, hv, ht⟩ => ?_, fun h => ⟨hcheck, _, hload', h.symm⟩⟩
    obtain rfl := Except.ok.inj (hv.symm.trans hload')
    exact ht.symm
  · rw [hexec] at hfault ⊢
    obtain ⟨e, rfl, he⟩ := complete_fault.1 hfault
    refine complete_fault.2 ⟨e, rfl, he.imp id fun ⟨hcheck, hload⟩ => ⟨hcheck, ?_⟩⟩
    exact loadOperand_error.2 ((loadOperand_error (s := s)).1 hload)

/-! ### The outcome of a memory form is that of its access check (R44 to R47, R158, R160) -/

theorem formCheck_of_ready {env : Env} {F : Form} (h : FormReady env F) : formCheck env F = none := by
  cases F with
  | mmx =>
    obtain ⟨hcpuid, hem, hts, hpending⟩ := h
    simp [formCheck, preChecksMmx, hcpuid, hem, hts, hpending]
  | sse =>
    obtain ⟨hcpuid, hem, hosfxsr, hts⟩ := h
    simp [formCheck, preChecksSse, hcpuid, hem, hosfxsr, hts]
  | vex128 | vex256 =>
    obtain ⟨⟨hosxsave, hxsse, hxavx, hts⟩, hcpuid⟩ := h
    simp [formCheck, preChecksVex, hosxsave, hxsse, hxavx, hts, hcpuid]

/-- The access check of the memory operand `m` of the instruction `i` (R47). -/
def operandCheck (i : Instr) (s : State) (m : MemOp) : Except Exc Addr :=
  checkRead s.access s.env (effAddr s (instrLen i) m).1 (effAddr s (instrLen i) m).2 (operandBytes (formOf i))
    (formAlign s.env (formOf i)) (formAlignCheck (formOf i))

section Outcome

variable {i : Instr} {s : State} {m : MemOp} {la : Addr}

theorem exec_fault_of_operandCheck {e : Exc} (hm : memOpOf i = some m) (hready : FormReady s.env (formOf i))
    (h : operandCheck i s m = .error e) : exec i s = .fault (.exception e s.pc) := by
  obtain ⟨write, hexec, -⟩ := exec_isMemForm hm
  rw [hexec]
  exact complete_fault.2 ⟨e, rfl, .inr ⟨formCheck_of_ready hready, loadOperand_error.2 h⟩⟩

theorem exec_next_of_operandCheck (hm : memOpOf i = some m) (hready : FormReady s.env (formOf i))
    (h : operandCheck i s m = .ok la) : ∃ t, exec i s = .next t := by
  obtain ⟨write, hexec, -⟩ := exec_isMemForm hm
  rw [hexec]
  exact ⟨_, complete_next.2 ⟨formCheck_of_ready hready, _, loadOperand_ok.2 ⟨la, h, rfl⟩, rfl⟩⟩

end Outcome

/-- Settles O34: the alignment of 16 is looked at before the page check. -/
theorem legacySseMisalignmentFaults : Obligations.LegacySseMisalignmentFaults := by
  intro i s m la hF hm hready hseg hmis
  refine exec_fault_of_operandCheck hm (hF ▸ hready) ?_
  rw [operandCheck, hF]
  exact checkRead_misaligned hseg (by decide : 1 < 16) hmis

/-- Settles O35: the parameter decides whether the alignment of a VEX.128 form is 16 or 1. -/
theorem vexAlignmentFollowsParameter : Obligations.VexAlignmentFollowsParameter := by
  intro i s m la hm hready ⟨hseg, hpage⟩ hmis
  refine ⟨fun hF henforced => ?_, fun hF hfree => ?_, fun hF => ?_⟩
  · refine exec_fault_of_operandCheck hm hready (checkRead_misaligned hseg ?_ ?_)
    · simp [hF, formAlign, vexM128Align, henforced]
    · simpa [hF, formAlign, vexM128Align, henforced] using hmis
  · refine exec_next_of_operandCheck hm hready (checkRead_ok_iff.2 ⟨hseg, ?_, hpage, ?_⟩)
    · simp [hF, formAlign, vexM128Align, hfree]
    · simp [hF, formAlignCheck]
  · refine exec_next_of_operandCheck hm hready (checkRead_ok_iff.2 ⟨hseg, ?_, hpage, ?_⟩)
    · simp [hF, formAlign]
    · simp [hF, formAlignCheck]

/-- Settles O36: an `m32` has no alignment of its own, and an alignment check of 4. -/
theorem mmxAlignmentCheck : Obligations.MmxAlignmentCheck := by
  intro i s m la hF hm hready ⟨hseg, hpage⟩ hmis
  refine ⟨fun hac => exec_fault_of_operandCheck hm (hF ▸ hready) ?_,
    fun hac => exec_next_of_operandCheck (la := la) hm (hF ▸ hready) ?_⟩
  · rw [operandCheck, hF]
    exact checkRead_alignment_check hseg (fun h => absurd h (Nat.lt_irrefl 1)) hpage (by decide) hac hmis
  · rw [operandCheck, hF]
    exact checkRead_ok_iff.2 ⟨hseg, fun h => absurd h (Nat.lt_irrefl 1), hpage,
      fun _ h => absurd (hac.symm.trans h) (by decide)⟩

/-- The alignment of a family is 1 but for legacy SSE, and for VEX.128 under the parameter. -/
theorem aligned_of_required {env : Env} {F : Form} {la : Addr}
    (h : F = .sse ∨ (F = .vex128 ∧ env.vexM128AlignmentEnforced = true) → la.toNat % 16 = 0) :
    1 < formAlign env F → la.toNat % formAlign env F = 0 := by
  cases F with
  | mmx | vex256 => exact fun h => absurd h (Nat.lt_irrefl 1)
  | sse => exact fun _ => h (.inl rfl)
  | vex128 =>
    rw [formAlign, vexM128Align]
    split
    next henforced => exact fun _ => h (.inr ⟨rfl, henforced⟩)
    next => exact fun h => absurd h (Nat.lt_irrefl 1)

/-- Settles O37: the page check comes after the alignment and covers every byte of the operand. -/
theorem unallocatedOperandByteFaults : Obligations.UnallocatedOperandByteFaults := by
  intro i s m la k hm hready hpages hseg halign hk hmissing hbelow
  have hpage := (access_page_flat hpages s.env la _).trans (flatPage_fault hk hmissing hbelow)
  exact ⟨_, exec_fault_of_operandCheck hm hready (checkRead_page_fault hseg (aligned_of_required halign) hpage)⟩

/-- Settles O38: the flat segment check refuses the address, and the segment decides the exception. -/
theorem illegalAddressFaultsBySegment : Obligations.IllegalAddressFaultsBySegment := by
  intro i s m hm hready hsegs hillegal
  have hflat : flatSegment s.env (effAddr s (instrLen i) m).1 (effAddr s (instrLen i) m).2 (operandBytes (formOf i)) = .fault := by
    obtain ⟨hmode, hlow, hhigh⟩ | ⟨hmode, hpast⟩ := hillegal
    · rw [flatSegment_mode64 hmode, if_neg (by omega)]
    · rw [flatSegment_mode32 hmode, if_neg (by omega)]
  have hfault := exec_fault_of_operandCheck hm hready
    (checkRead_segment_fault ((access_segment_flat hsegs _ _ _ _).trans hflat))
  refine ⟨fun hseg => ?_, fun hseg => ?_⟩
  · rwa [hseg] at hfault
  · rwa [hseg] at hfault

end Sys2Proof.Proofs.MemoryAccess
end

section
/-! SUPPORT. Proofs of the statements of 30_encoding.md: the decoder and the encoder are inverse to each other, what the decoder
answers to incomplete, prefixed and reserved encodings, and the effective addresses of R66 and R67. -/

namespace Sys2Proof.Proofs.Encoding

open Sys2Proof Sys2Proof.Machine

/-! ### Register numbers and their bits (R65, R68) -/

@[simp] theorem regNum_regHi_regLo (r : Fin 16) : regNum (regHi r) (regLo r) = r := by
  revert r
  decide

@[simp] theorem regHi_regNum (hi : Bool) (lo : BitVec 3) : regHi (regNum hi lo) = hi := by
  revert hi lo
  decide

@[simp] theorem regLo_regNum (hi : Bool) (lo : BitVec 3) : regLo (regNum hi lo) = lo := by
  revert hi lo
  decide

@[simp] theorem mmNum_mmLo (r : MmReg) : mmNum (mmLo r) = r := by
  revert r
  decide

@[simp] theorem mmLo_mmNum (lo : BitVec 3) : mmLo (mmNum lo) = lo := by
  revert lo
  decide

@[simp] theorem vvvvNum_vvvvBits (r : VReg) : vvvvNum (vvvvBits r) = r := by
  revert r
  decide

theorem regHi_eq_false_iff {r : Fin 16} : regHi r = false ↔ r.val < 8 := by
  simp [regHi]

/-! ### ModRM and SIB fields (R64, R66) -/

@[simp] theorem packFields_mod (hi : BitVec 2) (mid lo : BitVec 3) : (packFields hi mid lo).extractLsb' 6 2 = hi := by
  revert hi mid lo
  decide

@[simp] theorem packFields_reg (hi : BitVec 2) (mid lo : BitVec 3) : (packFields hi mid lo).extractLsb' 3 3 = mid := by
  revert hi mid lo
  decide

@[simp] theorem packFields_rm (hi : BitVec 2) (mid lo : BitVec 3) : (packFields hi mid lo).extractLsb' 0 3 = lo := by
  revert hi mid lo
  decide

@[simp] theorem packFields_fields (b : Byte) :
    packFields (b.extractLsb' 6 2) (b.extractLsb' 3 3) (b.extractLsb' 0 3) = b := by
  revert b
  decide

/-! ### Displacements (R41, R66) -/

theorem disp32_of_disp32Bytes (v : BitVec 32) :
    (v.extractLsb' 24 8 ++ v.extractLsb' 16 8 ++ v.extractLsb' 8 8 ++ v.extractLsb' 0 8).cast rfl = v := by
  rw [BitVec.extractLsb'_append_extractLsb'_eq_extractLsb' (start₁ := 16) (len₁ := 8) rfl,
    BitVec.extractLsb'_append_extractLsb'_eq_extractLsb' (start₁ := 8) (len₁ := 8) rfl]
  exact BitVec.extractLsb'_append_extractLsb' (w := 24) (len := 8) (x := v)

theorem disp32Bytes_of_append (b0 b1 b2 b3 : Byte) : disp32Bytes ((b3 ++ b2 ++ b1 ++ b0).cast rfl) = [b0, b1, b2, b3] := by
  have h1 : (b3 ++ b2 ++ b1 ++ b0).extractLsb' 8 8 = b1 := by
    rw [BitVec.extractLsb'_append_eq_of_le (by decide), BitVec.extractLsb'_append_eq_right]
  have h2 : (b3 ++ b2 ++ b1 ++ b0).extractLsb' 16 8 = b2 := by
    rw [BitVec.extractLsb'_append_eq_of_le (by decide), BitVec.extractLsb'_append_eq_of_le (by decide),
      BitVec.extractLsb'_append_eq_right]
  have h3 : (b3 ++ b2 ++ b1 ++ b0).extractLsb' 24 8 = b3 := by
    rw [BitVec.extractLsb'_append_eq_of_le (by decide), BitVec.extractLsb'_append_eq_of_le (by decide),
      BitVec.extractLsb'_append_eq_left]
  simp only [disp32Bytes, BitVec.extractLsb'_cast, BitVec.extractLsb'_append_eq_right, h1, h2, h3]

theorem takeDisp32_eq_some_iff {bytes : List Byte} {v : BitVec 32} :
    takeDisp32 bytes = some v ↔ ∃ rest, bytes = disp32Bytes v ++ rest := by
  constructor
  · intro h
    unfold takeDisp32 at h
    split at h
    next b0 b1 b2 b3 rest =>
      cases h
      exact ⟨rest, by rw [disp32Bytes_of_append]; rfl⟩
    next => cases h
  · rintro ⟨rest, rfl⟩
    exact congrArg some (disp32_of_disp32Bytes v)

theorem dispMod_ne_three (d : Disp) : dispMod d ≠ 3#2 := by
  cases d <;> simp [dispMod]

@[simp] theorem dispMod_eq_zero_iff {d : Disp} : dispMod d = 0#2 ↔ d = .none := by
  cases d <;> simp [dispMod]

/-- A displacement is read where its `mod` stands in the ModRM byte and its bytes follow. -/
theorem takeDisp_eq_some_iff {mod : BitVec 2} {bytes : List Byte} {d : Disp} (hmod : mod ≠ 3#2) :
    takeDisp mod bytes = some d ↔ mod = dispMod d ∧ ∃ rest, bytes = dispBytes d ++ rest := by
  constructor
  · intro h
    unfold takeDisp at h
    split_ifs at h with h0 h1
    · cases h
      exact ⟨h0, bytes, rfl⟩
    · obtain ⟨v, hv, rfl⟩ := Option.map_eq_some_iff.1 h
      obtain ⟨rest, rfl⟩ := List.head?_eq_some_iff.1 hv
      exact ⟨h1, rest, rfl⟩
    · obtain ⟨v, hv, rfl⟩ := Option.map_eq_some_iff.1 h
      have h2 : mod = 2#2 := by
        revert mod
        decide
      exact ⟨h2, takeDisp32_eq_some_iff.1 hv⟩
  · rintro ⟨rfl, rest, rfl⟩
    cases d with
    | none => rfl
    | d8 v => rfl
    | d32 v => exact congrArg (Option.map Disp.d32) (takeDisp32_eq_some_iff.2 ⟨rest, rfl⟩)

/-! ### Memory operands (R64, R66)

The two fields of the ModRM byte and the bytes after it that the encoder writes for a memory operand. -/

/-- `ModRM.mod` of a memory operand. -/
def memMod : MemOp → BitVec 2
  | .base _ d => dispMod d
  | .disp32 _ => 0#2
  | .sib _ _ _ d => dispMod d
  | .sibDisp32 _ _ _ => 0#2

/-- `ModRM.rm` of a memory operand: 100B announces a SIB byte. -/
def memRm : MemOp → BitVec 3
  | .base b _ => regLo b
  | .disp32 _ => 5#3
  | .sib _ _ _ _ => 4#3
  | .sibDisp32 _ _ _ => 4#3

/-- SIB byte and displacement. -/
def memTail : MemOp → List Byte
  | .base _ d => dispBytes d
  | .disp32 v => disp32Bytes v
  | .sib scale i b d => packFields scale (regLo i) (regLo b) :: dispBytes d
  | .sibDisp32 scale i v => packFields scale (regLo i) 5#3 :: disp32Bytes v

theorem encodeRM_mem (reg : BitVec 3) (m : MemOp) :
    encodeRM reg (.mem m) = packFields (memMod m) reg (memRm m) :: memTail m := by
  cases m <;> rfl

theorem memMod_ne_three (m : MemOp) : memMod m ≠ 3#2 := by
  cases m with
  | base _ d | sib _ _ _ d => exact dispMod_ne_three d
  | disp32 | sibDisp32 => simp [memMod]

theorem val_mod_eight_eq_iff {r : Fin 16} {lo : BitVec 3} : r.val % 8 = lo.toNat ↔ regLo r = lo := by
  rw [BitVec.toNat_eq, regLo, BitVec.toNat_ofNat]

theorem wf_base_iff {x b : Bool} {r : GReg} {d : Disp} :
    (MemOp.base r d).wf x b = true ↔ b = regHi r ∧ regLo r ≠ 4#3 ∧ ¬ (d = .none ∧ regLo r = 5#3) := by
  simp [MemOp.wf, regHi, ← val_mod_eight_eq_iff, and_assoc, imp_iff_not_or]

theorem wf_sib_iff {x b : Bool} {scale : BitVec 2} {i r : GReg} {d : Disp} :
    (MemOp.sib scale i r d).wf x b = true ↔ x = regHi i ∧ b = regHi r ∧ ¬ (d = .none ∧ regLo r = 5#3) := by
  simp [MemOp.wf, regHi, ← val_mod_eight_eq_iff, and_assoc, imp_iff_not_or]

theorem wf_sibDisp32_iff {x b : Bool} {scale : BitVec 2} {i : GReg} {v : BitVec 32} :
    (MemOp.sibDisp32 scale i v).wf x b = true ↔ x = regHi i := by
  simp [MemOp.wf, regHi]

theorem takeMemOp_some {x b : Bool} {mod : BitVec 2} {rm : BitVec 3} {bytes : List Byte} {m : MemOp} (hmod : mod ≠ 3#2)
    (h : takeMemOp x b mod rm bytes = some m) :
    m.wf x b = true ∧ mod = memMod m ∧ rm = memRm m ∧ ∃ rest, bytes = memTail m ++ rest := by
  unfold takeMemOp at h
  split_ifs at h with hsib hbare
  · split at h
    next => cases h
    next sib bytes =>
      dsimp only at h
      split_ifs at h with hnobase
      · obtain ⟨v, hv, rfl⟩ := Option.map_eq_some_iff.1 h
        obtain ⟨rest, rfl⟩ := takeDisp32_eq_some_iff.1 hv
        refine ⟨wf_sibDisp32_iff.2 (by simp), hnobase.1, hsib, rest, ?_⟩
        rw [memTail, regLo_regNum, ← hnobase.2, packFields_fields]
        rfl
      · obtain ⟨d, hd, rfl⟩ := Option.map_eq_some_iff.1 h
        obtain ⟨rfl, rest, rfl⟩ := (takeDisp_eq_some_iff hmod).1 hd
        refine ⟨wf_sib_iff.2 (by simpa using hnobase), rfl, hsib, rest, ?_⟩
        rw [memTail, regLo_regNum, regLo_regNum, packFields_fields]
        rfl
  · obtain ⟨v, hv, rfl⟩ := Option.map_eq_some_iff.1 h
    exact ⟨rfl, hbare.1, hbare.2, takeDisp32_eq_some_iff.1 hv⟩
  · obtain ⟨d, hd, rfl⟩ := Option.map_eq_some_iff.1 h
    obtain ⟨rfl, hrest⟩ := (takeDisp_eq_some_iff hmod).1 hd
    exact ⟨wf_base_iff.2 (by simpa using And.intro hsib (not_and.1 hbare)), rfl, (regLo_regNum b rm).symm, hrest⟩

theorem takeMemOp_memTail {x b : Bool} {m : MemOp} {rest : List Byte} (h : m.wf x b = true) :
    takeMemOp x b (memMod m) (memRm m) (memTail m ++ rest) = some m := by
  have hdisp : ∀ d, takeDisp (dispMod d) (dispBytes d ++ rest) = some d := fun d =>
    (takeDisp_eq_some_iff (dispMod_ne_three d)).2 ⟨rfl, rest, rfl⟩
  have hdisp32 : ∀ v, takeDisp32 (disp32Bytes v ++ rest) = some v := fun v => takeDisp32_eq_some_iff.2 ⟨rest, rfl⟩
  cases m with
  | base r d =>
    obtain ⟨rfl, hsib, hbare⟩ := wf_base_iff.1 h
    simp [takeMemOp, memMod, memRm, memTail, hsib, hbare, hdisp]
  | disp32 v => simp [takeMemOp, memMod, memRm, memTail, hdisp32]
  | sib scale i r d =>
    obtain ⟨rfl, rfl, hbase⟩ := wf_sib_iff.1 h
    simp [takeMemOp, memMod, memRm, memTail, hbase, hdisp]
  | sibDisp32 scale i v =>
    obtain rfl := wf_sibDisp32_iff.1 h
    simp [takeMemOp, memMod, memRm, memTail, hdisp32]

/-! ### Register-or-memory operands (R64) -/

/-- An operand whose register number is still the three bits of `rm` fits the prefix's X and B. -/
def fitsBits (x b : Bool) : RM (BitVec 3) → Bool
  | .reg _ => true
  | .mem m => m.wf x b

/-- ModRM byte and operand are read exactly from their encoding. -/
theorem takeModRM_eq_some_iff {x b : Bool} {bytes : List Byte} {reg : BitVec 3} {rm : RM (BitVec 3)} :
    takeModRM x b bytes = some (reg, rm) ↔ fitsBits x b rm = true ∧ ∃ rest, bytes = encodeRM reg rm ++ rest := by
  constructor
  · intro h
    unfold takeModRM at h
    split at h
    next => cases h
    next modrm bytes =>
      dsimp only at h
      split_ifs at h with hmod
      · cases h
        exact ⟨rfl, bytes, by rw [encodeRM, ← hmod, packFields_fields]; rfl⟩
      · obtain ⟨m, hm, heq⟩ := Option.map_eq_some_iff.1 h
        cases heq
        obtain ⟨hwf, hmod', hrm, rest, rfl⟩ := takeMemOp_some hmod hm
        refine ⟨hwf, rest, ?_⟩
        rw [encodeRM_mem, ← hmod', ← hrm, packFields_fields]
        rfl
  · rintro ⟨hfits, rest, rfl⟩
    cases rm with
    | reg lo => simp [takeModRM, encodeRM]
    | mem m => simp [takeModRM, encodeRM_mem, memMod_ne_three, takeMemOp_memTail hfits]

theorem takeModRM_encodeRM {x b : Bool} {rm : RM (BitVec 3)} (reg : BitVec 3) (rest : List Byte) (h : fitsBits x b rm = true) :
    takeModRM x b (encodeRM reg rm ++ rest) = some (reg, rm) :=
  takeModRM_eq_some_iff.2 ⟨h, rest, rfl⟩

theorem fitsBits_of_wfV {x b : Bool} {src : RM VReg} (h : src.wfV x b = true) : fitsBits x b (src.map regLo) = true := by
  cases src with
  | reg r => rfl
  | mem m => exact h

theorem fitsBits_of_wfMm {x b : Bool} {src : RM MmReg} (h : src.wfMm x b = true) : fitsBits x b (src.map mmLo) = true := by
  cases src with
  | reg r => rfl
  | mem m => exact h

theorem wfV_map_regNum {x b : Bool} {rm : RM (BitVec 3)} (h : fitsBits x b rm = true) :
    (rm.map (regNum b)).wfV x b = true := by
  cases rm with
  | reg lo => exact beq_iff_eq.2 (regHi_regNum b lo).symm
  | mem m => exact h

theorem wfMm_map_mmNum {x b : Bool} {rm : RM (BitVec 3)} (h : fitsBits x b rm = true) (hreg : (b && rm.isReg) = false) :
    (rm.map mmNum).wfMm x b = true := by
  cases rm with
  | reg lo => simpa [RM.map, RM.wfMm, RM.isReg] using hreg
  | mem m => exact h

theorem map_regLo_map_regNum {x b : Bool} {src : RM VReg} (h : src.wfV x b = true) :
    (src.map regLo).map (regNum b) = src := by
  cases src with
  | reg r =>
    obtain rfl : b = regHi r := by simpa [RM.wfV, regHi] using h
    simp [RM.map]
  | mem m => rfl

@[simp] theorem map_regNum_map_regLo (b : Bool) (rm : RM (BitVec 3)) : (rm.map (regNum b)).map regLo = rm := by
  cases rm <;> simp [RM.map]

@[simp] theorem map_mmLo_map_mmNum (src : RM MmReg) : (src.map mmLo).map mmNum = src := by
  cases src <;> simp [RM.map]

@[simp] theorem map_mmNum_map_mmLo (rm : RM (BitVec 3)) : (rm.map mmNum).map mmLo = rm := by
  cases rm <;> simp [RM.map]

theorem not_extends_of_wfMm {x b : Bool} {src : RM MmReg} (h : src.wfMm x b = true) : (b && (src.map mmLo).isReg) = false := by
  cases src with
  | reg r => simpa [RM.map, RM.wfMm, RM.isReg] using h
  | mem m => simp [RM.map, RM.isReg]

/-! ### Opcodes (R60, R61) -/

@[simp] theorem opcOf_opcByte (o : Opc) : opcOf (opcByte o) = some o := by
  cases o <;> rfl

theorem eq_opcByte_of_opcOf {b : Byte} {o : Opc} (h : opcOf b = some o) : b = opcByte o := by
  unfold opcOf at h
  split_ifs at h with hb hb hb hb
  all_goals
    cases h
    exact hb

/-! ### REX bytes (R63) -/

/-- The REX byte of the bits W, X, B and the bit R. -/
def rexByte (r : Bool) (e : ExtBits) : Byte :=
  (4#4 ++ BitVec.ofBool e.w ++ BitVec.ofBool r ++ BitVec.ofBool e.x ++ BitVec.ofBool e.b).cast rfl

theorem rexBytes_eq_toList (r : Bool) (p : RexPfx) : rexBytes r p = (p.map (rexByte r)).toList := by
  cases p <;> rfl

theorem isRex_rexByte (r : Bool) (e : ExtBits) : isRex (rexByte r e) = true := by
  obtain ⟨w, x, b⟩ := e
  revert r w x b
  decide

@[simp] theorem rexBits_rexByte (r : Bool) (e : ExtBits) : rexBits (rexByte r e) = e := by
  obtain ⟨w, x, b⟩ := e
  revert r w x b
  decide

@[simp] theorem rexR_rexByte (r : Bool) (e : ExtBits) : rexR (some (rexByte r e)) = r := by
  obtain ⟨w, x, b⟩ := e
  revert r w x b
  decide

theorem rexByte_rexBits {b : Byte} (h : isRex b = true) : rexByte (b.getLsbD 2) (rexBits b) = b := by
  revert b
  decide

@[simp] theorem rexBits_comp_rexByte (r : Bool) : rexBits ∘ rexByte r = id := funext (rexBits_rexByte r)

theorem map_rexByte_map_rexBits (r : Bool) (p : RexPfx) : (p.map (rexByte r)).map rexBits = p := by
  simp

/-- Without a REX prefix R is 0, so a prefix has the bit `r` exactly if it is there or `r` is 0. -/
theorem rexR_map_rexByte {r : Bool} {p : RexPfx} (h : r = false ∨ p.isSome = true) : rexR (p.map (rexByte r)) = r := by
  cases p with
  | none => simpa [rexR, eq_comm] using h
  | some e => exact rexR_rexByte r e

/-- A REX prefix that the decoder has taken: it is a REX byte, in Mode64. -/
def RexTaken (m : Mode) (rex : Option Byte) : Prop := ∀ b ∈ rex, m = .mode64 ∧ isRex b = true

theorem rexTaken_none (m : Mode) : RexTaken m none := nofun

theorem rexTaken_some {m : Mode} {b : Byte} (hm : m = .mode64) (hb : isRex b = true) : RexTaken m (some b) := by
  rintro _ ⟨⟩
  exact ⟨hm, hb⟩

theorem rexTaken_map_rexByte {m : Mode} {p : RexPfx} (r : Bool) (h : RexPfx.wf m p = true) :
    RexTaken m (p.map (rexByte r)) := by
  intro b hb
  obtain ⟨e, rfl, rfl⟩ := Option.map_eq_some_iff.1 hb
  exact ⟨by simpa [RexPfx.wf] using h, isRex_rexByte r e⟩

theorem wf_map_rexBits {m : Mode} {rex : Option Byte} (h : RexTaken m rex) : RexPfx.wf m (rex.map rexBits) = true := by
  cases rex with
  | none => simp [RexPfx.wf]
  | some b =>
    obtain ⟨rfl, -⟩ := h b rfl
    rfl

theorem rexBytes_rexR {m : Mode} {rex : Option Byte} (h : RexTaken m rex) :
    rexBytes (rexR rex) (rex.map rexBits) = rex.toList := by
  cases rex with
  | none => rfl
  | some b =>
    obtain ⟨-, hb⟩ := h b rfl
    exact congrArg (· :: []) (rexByte_rexBits hb)

/-! ### Prefixes (R62, R80) -/

/-- A run of legacy prefix bytes. -/
def LegacyPrefixes (pfx : List Byte) : Prop := ∀ b ∈ pfx, isLegacyPrefix b = true

theorem legacyPrefixes_nil : LegacyPrefixes [] := nofun

theorem legacyPrefixes_singleton {b : Byte} (h : isLegacyPrefix b = true) : LegacyPrefixes [b] :=
  List.forall_mem_singleton.2 h

theorem not_isLegacyPrefix_of_isRex {b : Byte} (h : isRex b = true) : isLegacyPrefix b = false := by
  revert b
  decide

theorem decode_eq_decodeAfterPrefixes {m : Mode} {pfx : List Byte} {b : Byte} {bytes : List Byte}
    (hpfx : LegacyPrefixes pfx) (hb : isLegacyPrefix b = false) :
    decode m (pfx ++ b :: bytes) = decodeAfterPrefixes m pfx (b :: bytes) := by
  simp [decode, List.takeWhile_append_of_pos hpfx, List.dropWhile_append_of_pos hpfx, hb]

/-- After the legacy prefixes and a REX prefix, the decoder is at the first byte that is neither. -/
theorem decode_eq_decodeOpcode {m : Mode} {pfx : List Byte} {rex : Option Byte} {b : Byte} {bytes : List Byte}
    (hpfx : LegacyPrefixes pfx) (hrex : RexTaken m rex) (hb : isLegacyPrefix b = false) (hb' : isRex b = false) :
    decode m (pfx ++ (rex.toList ++ b :: bytes)) = decodeOpcode m pfx rex b bytes := by
  cases rex with
  | none =>
    refine (decode_eq_decodeAfterPrefixes hpfx hb).trans ?_
    simp [decodeAfterPrefixes, hb']
  | some r =>
    obtain ⟨rfl, hr⟩ := hrex r rfl
    refine (decode_eq_decodeAfterPrefixes hpfx (not_isLegacyPrefix_of_isRex hr)).trans ?_
    simp [decodeAfterPrefixes, hr, hb, hb']

/-- What decodes to an instruction is legacy prefixes, perhaps a REX prefix, and an opcode. -/
theorem decode_instr {m : Mode} {bytes : List Byte} {i : Instr} (h : decode m bytes = .instr i) :
    ∃ pfx rex b rest, LegacyPrefixes pfx ∧ RexTaken m rex ∧ bytes = pfx ++ (Option.toList rex ++ b :: rest) ∧
      decodeOpcode m pfx rex b rest = .instr i := by
  have hpfx : LegacyPrefixes (bytes.takeWhile isLegacyPrefix) := fun b hb => List.mem_takeWhile_imp hb
  have hsplit := (List.takeWhile_append_dropWhile (p := isLegacyPrefix) (l := bytes)).symm
  rw [decode] at h
  unfold decodeAfterPrefixes at h
  split at h
  next => cases h
  next b rest hdrop =>
    rw [hdrop] at hsplit
    split_ifs at h with hrex
    · split at h
      next => cases h
      next c rest' =>
        split_ifs at h
        exact ⟨_, some b, c, rest', hpfx, rexTaken_some hrex.1 hrex.2, hsplit, h⟩
    · exact ⟨_, none, b, rest, hpfx, nofun, hsplit, h⟩

/-! ### The families of instructions as the decoder makes them (R2, R61, R72) -/

/-- Each instruction is made by one of the decoder's three constructors. -/
inductive MadeBy (i : Instr) : Prop
  | mm {o p d src} (h : mmInstr o p d src = some i)
  | xmm {o p d src} (h : i = xmmInstr o p d src)
  | vex {o l p d s1 src} (h : i = vexInstr o l p d s1 src)

theorem madeBy (i : Instr) : MadeBy i := by
  cases i with
  | punpcklbwMm => exact .mm (o := .bw) rfl
  | punpcklwdMm => exact .mm (o := .wd) rfl
  | punpckldqMm => exact .mm (o := .dq) rfl
  | punpcklbwXmm => exact .xmm (o := .bw) rfl
  | punpcklwdXmm => exact .xmm (o := .wd) rfl
  | punpckldqXmm => exact .xmm (o := .dq) rfl
  | punpcklqdqXmm => exact .xmm (o := .qdq) rfl
  | vpunpcklbwXmm => exact .vex (o := .bw) (l := false) rfl
  | vpunpcklwdXmm => exact .vex (o := .wd) (l := false) rfl
  | vpunpckldqXmm => exact .vex (o := .dq) (l := false) rfl
  | vpunpcklqdqXmm => exact .vex (o := .qdq) (l := false) rfl
  | vpunpcklbwYmm => exact .vex (o := .bw) (l := true) rfl
  | vpunpcklwdYmm => exact .vex (o := .wd) (l := true) rfl
  | vpunpckldqYmm => exact .vex (o := .dq) (l := true) rfl
  | vpunpcklqdqYmm => exact .vex (o := .qdq) (l := true) rfl

/-- What an MMX form is, by its opcode: there is no MMX PUNPCKLQDQ. -/
theorem mmInstr_eq_some {o : Opc} {p : RexPfx} {d : MmReg} {src : RM MmReg} {i : Instr} (h : mmInstr o p d src = some i) :
    o ≠ .qdq ∧ encode i = encodeMm o p d src ∧ (∀ m, i.wf m = wfMmForm m p src) ∧ formOf i = .mmx := by
  cases o with
  | bw | wd | dq =>
    cases h
    exact ⟨nofun, rfl, fun _ => rfl, rfl⟩
  | qdq => cases h

@[simp] theorem encode_xmmInstr (o : Opc) (p d src) : encode (xmmInstr o p d src) = encodeXmm o p d src := by
  cases o <;> rfl

@[simp] theorem wf_xmmInstr (m : Mode) (o : Opc) (p d src) : (xmmInstr o p d src).wf m = wfXmmForm m p d src := by
  cases o <;> rfl

@[simp] theorem formOf_xmmInstr (o : Opc) (p d src) : formOf (xmmInstr o p d src) = .sse := by
  cases o <;> rfl

@[simp] theorem encode_vexInstr (o : Opc) (l : Bool) (p d s1 src) :
    encode (vexInstr o l p d s1 src) = encodeVex o l p d s1 src := by
  cases o <;> cases l <;> rfl

@[simp] theorem wf_vexInstr (m : Mode) (o : Opc) (l : Bool) (p d s1 src) :
    (vexInstr o l p d s1 src).wf m = wfVexForm m p d s1 src := by
  cases o <;> cases l <;> rfl

@[simp] theorem formOf_vexInstr (o : Opc) (l : Bool) (p d s1 src) :
    formOf (vexInstr o l p d s1 src) = if l then .vex256 else .vex128 := by
  cases o <;> cases l <;> rfl

/-! ### Legacy forms (R61 to R65, R80) -/

theorem decode_legacy {m : Mode} {pfx : List Byte} {rex : Option Byte} {bytes : List Byte} (hpfx : LegacyPrefixes pfx)
    (hrex : RexTaken m rex) : decode m (pfx ++ (rex.toList ++ 0x0F#8 :: bytes)) = decodeLegacy pfx rex bytes :=
  decode_eq_decodeOpcode hpfx hrex (by decide) (by decide)

/-- The prefixes that a legacy form admits: none, or one 66H. -/
def Admitted (pfx : List Byte) : Prop := pfx = [] ∨ pfx = [0x66#8]

/-- The prefixes hold one that the spec does not describe before a legacy form, or 66H twice (R79). -/
def undescribed (pfx : List Byte) : Bool :=
  pfx.any isSegOrAddrPrefix || pfx.any isRepPrefix || decide (1 < pfx.count 0x66#8)

/-- 66H is the only legacy prefix byte that no clause of R79 and R80 rejects. -/
theorem eq_66_of_not_rejected {b : Byte} (h : isLegacyPrefix b = true) (hseg : isSegOrAddrPrefix b = false)
    (hrep : isRepPrefix b = false) (hlock : b ≠ 0xF0#8) : b = 0x66#8 := by
  revert b
  decide

theorem admitted_of_not_rejected {pfx : List Byte} (hpfx : LegacyPrefixes pfx)
    (hreject : undescribed pfx = false)
    (hlock : ¬ pfx.contains 0xF0#8 = true) : Admitted pfx := by
  simp only [undescribed, Bool.or_eq_false_iff, decide_eq_false_iff_not, List.any_eq_false] at hreject
  obtain ⟨⟨hseg, hrep⟩, hcount⟩ := hreject
  have hall : ∀ b ∈ pfx, b = 0x66#8 := fun b hb =>
    eq_66_of_not_rejected (hpfx b hb) (by simpa using hseg b hb) (by simpa using hrep b hb)
      fun heq => hlock (by simpa [heq] using hb)
  rw [List.eq_replicate_of_mem hall, List.count_replicate_self] at hcount
  obtain h0 | h1 : pfx.length = 0 ∨ pfx.length = 1 := by omega
  · exact .inl (List.length_eq_zero_iff.1 h0)
  · refine .inr ?_
    rw [List.eq_replicate_of_mem hall, h1]
    rfl

/-- With admitted prefixes and an opcode of the group, the operand bytes decide the form. -/
theorem decodeLegacy_encodeRM {pfx : List Byte} {rex : Option Byte} {o : Opc} {reg : BitVec 3} {rm : RM (BitVec 3)}
    {rest : List Byte} (hpfx : (pfx = [] ∧ o ≠ .qdq) ∨ pfx = [0x66#8])
    (hfits : fitsBits (ExtBits.xOf (rex.map rexBits)) (ExtBits.bOf (rex.map rexBits)) rm = true) :
    decodeLegacy pfx rex (opcByte o :: (encodeRM reg rm ++ rest)) = legacyForm pfx rex o reg rm := by
  obtain ⟨rfl, ho⟩ | rfl := hpfx
  · simp [decodeLegacy, ho, takeModRM_encodeRM reg rest hfits]
  · have hsingle : isSegOrAddrPrefix 0x66#8 = false ∧ isRepPrefix 0x66#8 = false := by decide
    simp [decodeLegacy, hsingle, takeModRM_encodeRM reg rest hfits]

theorem decodeLegacy_instr {pfx : List Byte} {rex : Option Byte} {bytes : List Byte} {i : Instr} (hpfx : LegacyPrefixes pfx)
    (h : decodeLegacy pfx rex bytes = .instr i) :
    Admitted pfx ∧ ∃ o reg rm rest, bytes = opcByte o :: (encodeRM reg rm ++ rest) ∧
      fitsBits (ExtBits.xOf (rex.map rexBits)) (ExtBits.bOf (rex.map rexBits)) rm = true ∧
      legacyForm pfx rex o reg rm = .instr i := by
  unfold decodeLegacy at h
  split at h
  next => cases h
  next op bytes =>
    split at h
    next => cases h
    next o ho =>
      split_ifs at h with _ hreject hlock
      split at h
      next => cases h
      next reg rm hrm =>
        obtain ⟨hfits, rest, rfl⟩ := takeModRM_eq_some_iff.1 hrm
        exact ⟨admitted_of_not_rejected hpfx (Bool.eq_false_of_not_eq_true hreject) hlock, o, reg, rm, rest, by rw [eq_opcByte_of_opcOf ho], hfits, h⟩

theorem legacyForm_xmm (rex : Option Byte) (o : Opc) (reg : BitVec 3) (rm : RM (BitVec 3)) :
    legacyForm [0x66#8] rex o reg rm =
      .instr (xmmInstr o (rex.map rexBits) (regNum (rexR rex) reg) (rm.map (regNum (ExtBits.bOf (rex.map rexBits))))) := rfl

/-- Without 66H a form is MMX, and then no REX bit may extend a register field. -/
theorem legacyForm_mm_eq_instr_iff {rex : Option Byte} {o : Opc} {reg : BitVec 3} {rm : RM (BitVec 3)} {i : Instr} :
    legacyForm [] rex o reg rm = .instr i ↔
      rexR rex = false ∧ (ExtBits.bOf (rex.map rexBits) && rm.isReg) = false ∧
        mmInstr o (rex.map rexBits) (mmNum reg) (rm.map mmNum) = some i := by
  simp only [legacyForm, List.contains_nil, Bool.false_eq_true, if_false]
  constructor
  · intro h
    split_ifs at h with hext
    obtain ⟨hr, hreg⟩ := Bool.or_eq_false_iff.1 (Bool.eq_false_of_not_eq_true hext)
    split at h
    next j hj =>
      cases h
      exact ⟨hr, hreg, hj⟩
    next => cases h
  · rintro ⟨hr, hreg, hi⟩
    simp only [hr, hreg, hi, Bool.or_self, Bool.false_eq_true, if_false]

theorem wfMmForm_iff {m : Mode} {p : RexPfx} {src : RM MmReg} :
    wfMmForm m p src = true ↔ RexPfx.wf m p = true ∧ src.wfMm (ExtBits.xOf p) (ExtBits.bOf p) = true := by
  simp [wfMmForm]

theorem wfXmmForm_iff {m : Mode} {p : RexPfx} {d : VReg} {src : RM VReg} :
    wfXmmForm m p d src = true ↔ RexPfx.wf m p = true ∧ (regHi d = false ∨ p.isSome = true) ∧
      src.wfV (ExtBits.xOf p) (ExtBits.bOf p) = true := by
  simp [wfXmmForm, regHi_eq_false_iff, and_assoc]

/-- What decodes after the escape byte 0F is well formed, and its bytes, prefixes included, are its encoding. -/
theorem decodeLegacy_sound {m : Mode} {pfx : List Byte} {rex : Option Byte} {bytes : List Byte} {i : Instr}
    (hpfx : LegacyPrefixes pfx) (hrex : RexTaken m rex) (h : decodeLegacy pfx rex bytes = .instr i) :
    i.wf m = true ∧ ∃ rest, pfx ++ (rex.toList ++ 0x0F#8 :: bytes) = encode i ++ rest := by
  obtain ⟨hadm, o, reg, rm, rest, rfl, hfits, hform⟩ := decodeLegacy_instr hpfx h
  obtain rfl | rfl := hadm
  · obtain ⟨hr, hreg, hi⟩ := legacyForm_mm_eq_instr_iff.1 hform
    obtain ⟨-, hencode, hwf, -⟩ := mmInstr_eq_some hi
    refine ⟨?_, rest, ?_⟩
    · rw [hwf]
      exact wfMmForm_iff.2 ⟨wf_map_rexBits hrex, wfMm_map_mmNum hfits hreg⟩
    · have hbytes := rexBytes_rexR hrex
      rw [hr] at hbytes
      simp [hencode, encodeMm, hbytes]
  · obtain rfl := Decoded.instr.inj hform
    refine ⟨?_, rest, ?_⟩
    · have hd : regHi (regNum (rexR rex) reg) = false ∨ (rex.map rexBits).isSome = true := by
        cases rex with
        | none => exact .inl (regHi_regNum _ _)
        | some b => exact .inr rfl
      rw [wf_xmmInstr]
      exact wfXmmForm_iff.2 ⟨wf_map_rexBits hrex, hd, wfV_map_regNum hfits⟩
    · simp [encodeXmm, rexBytes_rexR hrex]

/-! ### VEX forms (R65, R68, R69, R80) -/

/-- The byte after C4H: R, X and B inverted, and `mmmmm` = 00001B. -/
def vexByte1 (r x b : Bool) : Byte := (BitVec.ofBool (!r) ++ BitVec.ofBool (!x) ++ BitVec.ofBool (!b) ++ 1#5).cast rfl

/-- The top bit of a VEX prefix's last byte: R inverted in the 2-byte form, W in the 3-byte form. -/
def vexTop (p : VexPfx) (r : Bool) : Bool :=
  match p with
  | none => !r
  | some e => e.w

@[simp] theorem vexByte1_bit7 (r x b : Bool) : (vexByte1 r x b)[7] = (!r) := by
  revert r x b
  decide

@[simp] theorem vexByte1_bit6 (r x b : Bool) : (vexByte1 r x b)[6] = (!x) := by
  revert r x b
  decide

@[simp] theorem vexByte1_bit5 (r x b : Bool) : (vexByte1 r x b)[5] = (!b) := by
  revert r x b
  decide

@[simp] theorem vexByte1_map (r x b : Bool) : (vexByte1 r x b).extractLsb' 0 5 = 1#5 := by
  revert r x b
  decide

theorem eq_vexByte1 {v : Byte} (h : v.extractLsb' 0 5 = 1#5) :
    v = vexByte1 (!v.getLsbD 7) (!v.getLsbD 6) (!v.getLsbD 5) := by
  revert v
  decide

@[simp] theorem vexLastByte_bit7 (top : Bool) (s1 : VReg) (l : Bool) : (vexLastByte top s1 l)[7] = top := by
  revert top s1 l
  decide

@[simp] theorem vexLastByte_bit6 (top : Bool) (s1 : VReg) (l : Bool) : (vexLastByte top s1 l)[6] = decide (s1.val < 8) := by
  revert top s1 l
  decide

@[simp] theorem vexLastByte_vvvv (top : Bool) (s1 : VReg) (l : Bool) : (vexLastByte top s1 l).extractLsb' 3 4 = vvvvBits s1 := by
  revert top s1 l
  decide

@[simp] theorem vexLastByte_bit2 (top : Bool) (s1 : VReg) (l : Bool) : (vexLastByte top s1 l)[2] = l := by
  revert top s1 l
  decide

@[simp] theorem vexLastByte_pp (top : Bool) (s1 : VReg) (l : Bool) : (vexLastByte top s1 l).extractLsb' 0 2 = 1#2 := by
  revert top s1 l
  decide

theorem eq_vexLastByte {v : Byte} (h : v.extractLsb' 0 2 = 1#2) :
    v = vexLastByte (v.getLsbD 7) (vvvvNum (v.extractLsb' 3 4)) (v.getLsbD 2) := by
  revert v
  decide

theorem isVexNext_iff {m : Mode} {v : Byte} :
    isVexNext m v = true ↔ (m = .mode32 → v.getLsbD 7 = true ∧ v.getLsbD 6 = true) := by
  cases m with
  | mode64 => simp [isVexNext]
  | mode32 =>
    simp only [true_implies]
    revert v
    decide

/-- The mode lets C4H and C5H begin a VEX prefix with these fields (R68): in Mode32, where bits 7:6 of the next byte are 11B, they
are R = 0, X = 0 and a first source below 8 (in the 3-byte form it is the last byte that asks for the latter, R65). -/
def VexBegins (m : Mode) (p : VexPfx) (r : Bool) (s1 : VReg) : Prop :=
  m = .mode32 → r = false ∧ ExtBits.xOf p = false ∧ s1.val < 8

/-- A VEX prefix, where the mode lets it begin, is read with the fields it was written with. -/
theorem decode_vexBytes {m : Mode} {pfx : List Byte} {rex : Option Byte} {p : VexPfx} {r : Bool} {s1 : VReg} {l : Bool}
    {bytes : List Byte} (hpfx : LegacyPrefixes pfx) (hrex : RexTaken m rex) (h : VexBegins m p r s1) :
    decode m (pfx ++ (rex.toList ++ (vexBytes p r s1 l ++ bytes))) =
      decodeVex m pfx rex.isSome r 1#5 p (vexLastByte (vexTop p r) s1 l) bytes := by
  cases p with
  | none =>
    have hnext : isVexNext m (vexLastByte (!r) s1 l) = true := isVexNext_iff.2 fun hm => by
      obtain ⟨hr, -, hs1⟩ := h hm
      simp [hr, hs1]
    refine (decode_eq_decodeOpcode hpfx hrex (b := 0xC5#8) (by decide) (by decide)).trans ?_
    simp [decodeOpcode, hnext, vexTop]
  | some e =>
    have hnext : isVexNext m (vexByte1 r e.x e.b) = true := isVexNext_iff.2 fun hm => by
      obtain ⟨hr, hx, -⟩ := h hm
      simp [hr, show e.x = false from hx]
    refine (decode_eq_decodeOpcode hpfx hrex (b := 0xC4#8) (bytes := vexByte1 r e.x e.b :: vexLastByte e.w s1 l :: bytes)
      (by decide) (by decide)).trans ?_
    simp [decodeOpcode, hnext, vexTop]

/-- After a VEX prefix of the group with no prefix before it, the operand bytes give the instruction. -/
theorem decodeVex_encodeRM {m : Mode} {r top : Bool} {p : VexPfx} {s1 : VReg} {l : Bool} {o : Opc} {reg : BitVec 3}
    {rm : RM (BitVec 3)} {rest : List Byte} (hreserved : m = .mode32 → ExtBits.bOf p = false ∧ s1.val < 8)
    (hfits : fitsBits (ExtBits.xOf p) (ExtBits.bOf p) rm = true) :
    decodeVex m [] false r 1#5 p (vexLastByte top s1 l) (opcByte o :: (encodeRM reg rm ++ rest)) =
      .instr (vexInstr o l p (regNum r reg) s1 (rm.map (regNum (ExtBits.bOf p)))) := by
  have hnot : ¬ (m = .mode32 ∧ (ExtBits.bOf p = true ∨ 8 ≤ s1.val)) := fun ⟨hm, hbit⟩ => by
    obtain ⟨hb, h8⟩ := hreserved hm
    simp [hb, Nat.not_le.2 h8] at hbit
  simp [decodeVex, hnot, takeModRM_encodeRM reg rest hfits]

theorem wfVexForm_iff {m : Mode} {p : VexPfx} {d s1 : VReg} {src : RM VReg} :
    wfVexForm m p d s1 src = true ↔ src.wfV (ExtBits.xOf p) (ExtBits.bOf p) = true ∧
      (m = .mode32 → regHi d = false ∧ s1.val < 8 ∧ ExtBits.xOf p = false ∧ ExtBits.bOf p = false) := by
  cases m <;> simp [wfVexForm, regHi_eq_false_iff, and_assoc]

/-- What decodes after a VEX prefix has no prefix before that one, is well formed, and its bytes are its encoding. The hypothesis is
what it takes for a VEX prefix to begin in Mode32. -/
theorem decodeVex_sound {m : Mode} {pfx : List Byte} {rexPresent r : Bool} {mmmmm : BitVec 5} {p : VexPfx} {last : Byte}
    {bytes : List Byte} {i : Instr} (h : decodeVex m pfx rexPresent r mmmmm p last bytes = .instr i)
    (hbegins : m = .mode32 → r = false ∧ ExtBits.xOf p = false) :
    pfx = [] ∧ rexPresent = false ∧ mmmmm = 1#5 ∧ i.wf m = true ∧
      ∃ s1 l, last = vexLastByte (last.getLsbD 7) s1 l ∧ ∃ rest, vexBytes p r s1 l ++ bytes = encode i ++ rest := by
  unfold decodeVex at h
  split at h
  next => cases h
  next op bytes =>
    split at h
    next => cases h
    next o ho =>
      split_ifs at h with hgroup _ hprefix hreserved
      obtain ⟨hmap, hpp⟩ : mmmmm = 1#5 ∧ last.extractLsb' 0 2 = 1#2 := by simpa using hgroup
      obtain ⟨hpfx, hrexPresent⟩ : pfx = [] ∧ rexPresent = false := by simpa using hprefix
      split at h
      next => cases h
      next reg rm hrm =>
        cases h
        obtain ⟨hfits, rest, rfl⟩ := takeModRM_eq_some_iff.1 hrm
        refine ⟨hpfx, hrexPresent, hmap, ?_, _, _, eq_vexLastByte hpp, rest, ?_⟩
        · rw [wf_vexInstr]
          refine wfVexForm_iff.2 ⟨wfV_map_regNum hfits, fun hm => ?_⟩
          obtain ⟨rfl, hx⟩ := hbegins hm
          obtain ⟨hb, hv⟩ : ExtBits.bOf p = false ∧ last.getLsbD 6 = true := by simpa [hm] using hreserved
          exact ⟨regHi_regNum _ _, MachineState.vvvvNum_lt hv, hx, hb⟩
        · rw [encode_vexInstr, encodeVex, regHi_regNum, regLo_regNum, map_regNum_map_regLo, eq_opcByte_of_opcOf ho]
          simp

/-! ### Decoding is the inverse of encoding (R60 to R73, R80) -/

theorem decode_encodeMm {m : Mode} {pfx : List Byte} {o : Opc} {p : RexPfx} {d : MmReg} {src : RM MmReg} {rest : List Byte}
    (hpfx : LegacyPrefixes pfx) (hp : RexPfx.wf m p = true) :
    decode m (pfx ++ (encodeMm o p d src ++ rest)) =
      decodeLegacy pfx (p.map (rexByte false)) (opcByte o :: (encodeRM (mmLo d) (src.map mmLo) ++ rest)) := by
  rw [← decode_legacy hpfx (rexTaken_map_rexByte false hp), ← rexBytes_eq_toList]
  simp [encodeMm]

theorem decode_encodeXmm {m : Mode} {pfx : List Byte} {o : Opc} {p : RexPfx} {d : VReg} {src : RM VReg} {rest : List Byte}
    (hpfx : LegacyPrefixes pfx) (hp : RexPfx.wf m p = true) :
    decode m (pfx ++ (encodeXmm o p d src ++ rest)) =
      decodeLegacy (pfx ++ [0x66#8]) (p.map (rexByte (regHi d)))
        (opcByte o :: (encodeRM (regLo d) (src.map regLo) ++ rest)) := by
  have hpfx' : LegacyPrefixes (pfx ++ [0x66#8]) :=
    List.forall_mem_append.2 ⟨hpfx, legacyPrefixes_singleton (by decide)⟩
  rw [← decode_legacy hpfx' (rexTaken_map_rexByte (regHi d) hp), ← rexBytes_eq_toList]
  simp [encodeXmm]

theorem decode_encodeVex {m : Mode} {pfx : List Byte} {rex : Option Byte} {o : Opc} {l : Bool} {p : VexPfx} {d s1 : VReg}
    {src : RM VReg} {rest : List Byte} (hpfx : LegacyPrefixes pfx) (hrex : RexTaken m rex)
    (hwf : wfVexForm m p d s1 src = true) :
    decode m (pfx ++ (rex.toList ++ (encodeVex o l p d s1 src ++ rest))) =
      decodeVex m pfx rex.isSome (regHi d) 1#5 p (vexLastByte (vexTop p (regHi d)) s1 l)
        (opcByte o :: (encodeRM (regLo d) (src.map regLo) ++ rest)) := by
  have hbegins : VexBegins m p (regHi d) s1 := by
    intro hm
    obtain ⟨-, hmode⟩ := wfVexForm_iff.1 hwf
    obtain ⟨hd, hs1, hx, -⟩ := hmode hm
    exact ⟨hd, hx, hs1⟩
  rw [← decode_vexBytes hpfx hrex hbegins]
  simp [encodeVex]

theorem decode_encode_mm {m : Mode} {o : Opc} {p : RexPfx} {d : MmReg} {src : RM MmReg} {i : Instr} (rest : List Byte)
    (hi : mmInstr o p d src = some i) (h : i.wf m = true) : decode m (encode i ++ rest) = .instr i := by
  obtain ⟨ho, hencode, hwf, -⟩ := mmInstr_eq_some hi
  obtain ⟨hp, hsrc⟩ := wfMmForm_iff.1 ((hwf m).symm.trans h)
  have hfits : fitsBits (ExtBits.xOf ((p.map (rexByte false)).map rexBits)) (ExtBits.bOf ((p.map (rexByte false)).map rexBits))
      (src.map mmLo) = true := by simpa using fitsBits_of_wfMm hsrc
  rw [hencode]
  refine (decode_encodeMm legacyPrefixes_nil hp).trans ((decodeLegacy_encodeRM (.inl ⟨rfl, ho⟩) hfits).trans ?_)
  refine legacyForm_mm_eq_instr_iff.2 ⟨rexR_map_rexByte (.inl rfl), ?_, ?_⟩
  · rw [map_rexByte_map_rexBits]
    exact not_extends_of_wfMm hsrc
  · simpa using hi

theorem decode_encode_xmm {m : Mode} {o : Opc} {p : RexPfx} {d : VReg} {src : RM VReg} (rest : List Byte)
    (h : wfXmmForm m p d src = true) : decode m (encodeXmm o p d src ++ rest) = .instr (xmmInstr o p d src) := by
  obtain ⟨hp, hd, hsrc⟩ := wfXmmForm_iff.1 h
  have hfits : fitsBits (ExtBits.xOf ((p.map (rexByte (regHi d))).map rexBits))
      (ExtBits.bOf ((p.map (rexByte (regHi d))).map rexBits)) (src.map regLo) = true := by simpa using fitsBits_of_wfV hsrc
  refine (decode_encodeXmm legacyPrefixes_nil hp).trans ((decodeLegacy_encodeRM (.inr rfl) hfits).trans ?_)
  rw [legacyForm_xmm, rexR_map_rexByte hd, map_rexByte_map_rexBits, regNum_regHi_regLo, map_regLo_map_regNum hsrc]

theorem decode_encode_vex {m : Mode} {o : Opc} {l : Bool} {p : VexPfx} {d s1 : VReg} {src : RM VReg} (rest : List Byte)
    (h : wfVexForm m p d s1 src = true) : decode m (encodeVex o l p d s1 src ++ rest) = .instr (vexInstr o l p d s1 src) := by
  obtain ⟨hsrc, hmode⟩ := wfVexForm_iff.1 h
  have hreserved : m = .mode32 → ExtBits.bOf p = false ∧ s1.val < 8 := fun hm => by
    obtain ⟨-, hs1, -, hb⟩ := hmode hm
    exact ⟨hb, hs1⟩
  refine (decode_encodeVex legacyPrefixes_nil (rexTaken_none m) h).trans ?_
  refine (decodeVex_encodeRM hreserved (fitsBits_of_wfV hsrc)).trans ?_
  rw [regNum_regHi_regLo, map_regLo_map_regNum hsrc]

/-- Settles O16: family by family, each stage of the decoder reads back what the encoder wrote for it. -/
theorem decodeOfEncodeIsTheInstruction : Obligations.DecodeOfEncodeIsTheInstruction := by
  intro m i rest h
  cases madeBy i with
  | mm hi => exact decode_encode_mm rest hi h
  | xmm hi =>
    subst hi
    rw [wf_xmmInstr] at h
    rw [encode_xmmInstr]
    exact decode_encode_xmm rest h
  | vex hi =>
    subst hi
    rw [wf_vexInstr] at h
    rw [encode_vexInstr]
    exact decode_encode_vex rest h

theorem vexBytes_none_eq {v1 : Byte} {s1 : VReg} {l : Bool} (h : v1 = vexLastByte (v1.getLsbD 7) s1 l) :
    vexBytes none (!v1.getLsbD 7) s1 l = [0xC5#8, v1] := by
  rw [vexBytes, Bool.not_not, ← h]

theorem vexBytes_some_eq {v1 v2 : Byte} {s1 : VReg} {l : Bool} (h1 : v1.extractLsb' 0 5 = 1#5)
    (h2 : v2 = vexLastByte (v2.getLsbD 7) s1 l) :
    vexBytes (some ⟨v2.getLsbD 7, !v1.getLsbD 6, !v1.getLsbD 5⟩) (!v1.getLsbD 7) s1 l = [0xC4#8, v1, v2] := by
  rw [vexBytes, ← h2, ← vexByte1, ← eq_vexByte1 h1]

/-- What decodes after the prefixes is well formed, and its bytes, prefixes included, are its encoding. -/
theorem decodeOpcode_sound {m : Mode} {pfx : List Byte} {rex : Option Byte} {b : Byte} {bytes : List Byte} {i : Instr}
    (hpfx : LegacyPrefixes pfx) (hrex : RexTaken m rex) (h : decodeOpcode m pfx rex b bytes = .instr i) :
    i.wf m = true ∧ ∃ rest, pfx ++ (rex.toList ++ b :: bytes) = encode i ++ rest := by
  unfold decodeOpcode at h
  split_ifs at h with hlegacy hvex2 hvex3
  · subst hlegacy
    exact decodeLegacy_sound hpfx hrex h
  · split at h
    next => cases h
    next v1 bytes =>
      split_ifs at h with hnext
      have hbegins : m = .mode32 → (!v1.getLsbD 7) = false ∧ ExtBits.xOf none = false := fun hm =>
        ⟨MachineState.vexR_false hnext hm, rfl⟩
      obtain ⟨rfl, hnorex, -, hwf, s1, l, hlast, rest, hrest⟩ := decodeVex_sound h hbegins
      obtain rfl : rex = none := by simpa using hnorex
      rw [vexBytes_none_eq hlast] at hrest
      exact ⟨hwf, rest, hvex2 ▸ hrest⟩
  · split at h
    next => cases h
    next v1 bytes =>
      split_ifs at h with hnext
      split at h
      next => cases h
      next v2 bytes =>
        have hbegins : m = .mode32 → (!v1.getLsbD 7) = false ∧ (!v1.getLsbD 6) = false := fun hm => by
          obtain ⟨h7, h6⟩ := isVexNext_iff.1 hnext hm
          exact ⟨by rw [h7, Bool.not_true], by rw [h6, Bool.not_true]⟩
        obtain ⟨rfl, hnorex, hmap, hwf, s1, l, hlast, rest, hrest⟩ := decodeVex_sound h hbegins
        obtain rfl : rex = none := by simpa using hnorex
        rw [vexBytes_some_eq hmap hlast] at hrest
        exact ⟨hwf, rest, hvex3 ▸ hrest⟩

/-- Settles O17: each stage of the decoder that answers an instruction has read the bytes that the encoder writes for it. -/
theorem encodeOfDecodeIsTheBytes : Obligations.EncodeOfDecodeIsTheBytes := by
  intro m bytes i h
  obtain ⟨pfx, rex, b, rest, hpfx, hrex, rfl, hop⟩ := decode_instr h
  exact decodeOpcode_sound hpfx hrex hop

/-! ### Length (R73) -/

/-- ModRM byte, then at most a SIB byte and four bytes of displacement. -/
theorem rmLen_bounds {ρ : Type} (rm : RM ρ) : 1 ≤ rmLen rm ∧ rmLen rm ≤ 6 := by
  have hdisp : ∀ d, dispLen d ≤ 4 := fun d => by cases d <;> simp [dispLen]
  rcases rm with _ | ⟨_, d⟩ | _ | ⟨_, _, _, d⟩ | _
  case mem.base | mem.sib =>
    have := hdisp d
    simp only [rmLen]
    omega
  all_goals simp [rmLen]

theorem instrLen_bounds (i : Instr) : 3 ≤ instrLen i ∧ instrLen i ≤ 10 := by
  cases madeBy i with
  | @mm _ p _ src h =>
    obtain ⟨hlen, -⟩ := MachineState.mmInstr_some h
    have := rmLen_bounds src
    rw [hlen, mmLen]
    split <;> omega
  | @xmm _ p _ src h =>
    have := rmLen_bounds src
    rw [h, MachineState.instrLen_xmmInstr, xmmLen]
    split <;> omega
  | @vex _ _ p _ _ src h =>
    have := rmLen_bounds src
    rw [h, MachineState.instrLen_vexInstr, vexLen]
    split <;> omega

/-- Settles O18: the bounds of every form's length, and the bytes the decoder has read. -/
theorem decodedLengthWithinBytes : Obligations.DecodedLengthWithinBytes := by
  intro m bytes i h
  obtain ⟨hmin, hmax⟩ := instrLen_bounds i
  obtain ⟨hfit, -⟩ := MachineState.decode_fits h
  exact ⟨hmin, hmax, hfit⟩

/-! ### Incomplete instructions (R79, R80)

What the decoder answers to some bytes, if it is not that they end too early, it answers to any longer bytes too. -/

/-- `d'` is the same answer as `d`, unless `d` is that the bytes end too early. -/
def Stays (d d' : Decoded) : Prop := d ≠ .refused .truncated → d' = d

theorem stays_rfl {d : Decoded} : Stays d d := fun _ => rfl

theorem stays_truncated {d' : Decoded} : Stays (.refused .truncated) d' := fun h => absurd rfl h

theorem stays_ite {c : Prop} [Decidable c] {a a' b b' : Decoded} (ha : Stays a a') (hb : Stays b b') :
    Stays (if c then a else b) (if c then a' else b') := by
  split
  next => exact ha
  next => exact hb

theorem takeModRM_append {x b : Bool} {bytes : List Byte} {y : BitVec 3 × RM (BitVec 3)} (rest : List Byte)
    (h : takeModRM x b bytes = some y) : takeModRM x b (bytes ++ rest) = some y := by
  obtain ⟨hfits, tail, rfl⟩ := takeModRM_eq_some_iff.1 h
  rw [List.append_assoc]
  exact takeModRM_encodeRM _ _ hfits

theorem decodeLegacy_stays {pfx : List Byte} {rex : Option Byte} {bytes rest : List Byte} :
    Stays (decodeLegacy pfx rex bytes) (decodeLegacy pfx rex (bytes ++ rest)) := by
  cases bytes with
  | nil => exact stays_truncated
  | cons op bytes =>
    simp only [decodeLegacy, List.cons_append]
    cases opcOf op with
    | none => exact stays_rfl
    | some o =>
      refine stays_ite stays_rfl (stays_ite stays_rfl (stays_ite stays_rfl ?_))
      cases hrm : takeModRM (ExtBits.xOf (rex.map rexBits)) (ExtBits.bOf (rex.map rexBits)) bytes with
      | none => exact stays_truncated
      | some y =>
        rw [takeModRM_append rest hrm]
        exact stays_rfl

theorem decodeVex_stays {m : Mode} {pfx : List Byte} {rexPresent r : Bool} {mmmmm : BitVec 5} {p : VexPfx} {last : Byte}
    {bytes rest : List Byte} :
    Stays (decodeVex m pfx rexPresent r mmmmm p last bytes) (decodeVex m pfx rexPresent r mmmmm p last (bytes ++ rest)) := by
  cases bytes with
  | nil => exact stays_truncated
  | cons op bytes =>
    simp only [decodeVex, List.cons_append]
    cases opcOf op with
    | none => exact stays_rfl
    | some o =>
      refine stays_ite stays_rfl (stays_ite stays_rfl (stays_ite stays_rfl (stays_ite stays_rfl ?_)))
      cases hrm : takeModRM (ExtBits.xOf p) (ExtBits.bOf p) bytes with
      | none => exact stays_truncated
      | some y =>
        rw [takeModRM_append rest hrm]
        exact stays_rfl

theorem decodeOpcode_stays {m : Mode} {pfx : List Byte} {rex : Option Byte} {b : Byte} (bytes : List Byte) {rest : List Byte} :
    Stays (decodeOpcode m pfx rex b bytes) (decodeOpcode m pfx rex b (bytes ++ rest)) := by
  refine stays_ite decodeLegacy_stays (stays_ite ?_ (stays_ite ?_ stays_rfl))
  · cases bytes with
    | nil => exact stays_truncated
    | cons v1 bytes => exact stays_ite decodeVex_stays stays_rfl
  · rcases bytes with _ | ⟨v1, _ | ⟨v2, bytes⟩⟩
    · exact stays_truncated
    · exact stays_ite stays_truncated stays_rfl
    · exact stays_ite decodeVex_stays stays_rfl

theorem decodeAfterPrefixes_stays {m : Mode} {pfx bytes rest : List Byte} :
    Stays (decodeAfterPrefixes m pfx bytes) (decodeAfterPrefixes m pfx (bytes ++ rest)) := by
  rcases bytes with _ | ⟨b, _ | ⟨c, bytes⟩⟩
  · exact stays_truncated
  · exact stays_ite stays_truncated (decodeOpcode_stays [])
  · exact stays_ite (stays_ite stays_rfl (decodeOpcode_stays bytes)) (decodeOpcode_stays (c :: bytes))

/-- The run of legacy prefixes ends within the bytes, unless they are nothing else. -/
theorem decode_stays (m : Mode) (bytes rest : List Byte) : Stays (decode m bytes) (decode m (bytes ++ rest)) := by
  by_cases hall : ∀ b ∈ bytes, isLegacyPrefix b = true
  · rw [decode, List.dropWhile_eq_nil_iff.2 hall]
    exact stays_truncated
  · have hsome : ¬ (bytes.dropWhile isLegacyPrefix).isEmpty = true := by
      rwa [List.isEmpty_iff, List.dropWhile_eq_nil_iff]
    have hlen : (bytes.takeWhile isLegacyPrefix).length ≠ bytes.length := fun h =>
      hall (List.takeWhile_eq_self_iff.1 ((List.takeWhile_prefix _).eq_of_length h))
    rw [decode, decode, List.dropWhile_append, if_neg hsome, List.takeWhile_append, if_neg hlen]
    exact decodeAfterPrefixes_stays

/-- Settles O19: any other answer to a proper beginning would be the answer to the whole encoding, which is the instruction, and
that is longer than the beginning. -/
theorem properBeginningIsTruncated : Obligations.ProperBeginningIsTruncated := by
  intro m i k hwf hk
  by_contra hdec
  have hwhole := decode_stays m _ ((encode i).drop k) hdec
  have hround := decodeOfEncodeIsTheInstruction m i [] hwf
  rw [List.take_append_drop, ← List.append_nil (encode i), hround] at hwhole
  obtain ⟨hfit, -⟩ := MachineState.decode_fits hwhole.symm
  rw [List.append_nil, List.length_take] at hfit
  omega

/-! ### Rejected prefixes (R74(c), R79, R80) -/

/-- A prefix byte that no form admits leads to a refusal by name. -/
theorem decodeLegacy_prefixNotAdmitted {pfx : List Byte} {rex : Option Byte} {o : Opc} {bytes : List Byte}
    (ho : o ≠ .qdq ∨ pfx.contains 0x66#8 = true)
    (h : undescribed pfx = true) :
    decodeLegacy pfx rex (opcByte o :: bytes) = .refused .prefixNotAdmitted := by
  have hgroup : ¬ (o = .qdq ∧ ¬ pfx.contains 0x66#8 = true) := by tauto
  rw [undescribed] at h
  simp only [decodeLegacy, opcOf_opcByte, if_neg hgroup, if_pos h]

theorem decodeLegacy_lock {pfx : List Byte} {rex : Option Byte} {o : Opc} {bytes : List Byte}
    (ho : o ≠ .qdq ∨ pfx.contains 0x66#8 = true)
    (h : undescribed pfx = false)
    (hlock : pfx.contains 0xF0#8 = true) : decodeLegacy pfx rex (opcByte o :: bytes) = .ud := by
  have hgroup : ¬ (o = .qdq ∧ ¬ pfx.contains 0x66#8 = true) := by tauto
  rw [undescribed] at h
  simp only [decodeLegacy, opcOf_opcByte, if_neg hgroup, h, Bool.false_eq_true, if_false, if_pos hlock]

theorem decodeVex_prefixNotAdmitted {m : Mode} {pfx : List Byte} {rexPresent r top : Bool} {p : VexPfx} {s1 : VReg} {l : Bool}
    {o : Opc} {bytes : List Byte} (h : pfx.any isSegOrAddrPrefix = true) :
    decodeVex m pfx rexPresent r 1#5 p (vexLastByte top s1 l) (opcByte o :: bytes) = .refused .prefixNotAdmitted := by
  simp only [decodeVex, opcOf_opcByte, vexLastByte_pp, ne_eq, not_true_eq_false, or_self, if_false, if_pos h]

theorem decodeVex_prefixed {m : Mode} {pfx : List Byte} {rexPresent r top : Bool} {p : VexPfx} {s1 : VReg} {l : Bool}
    {o : Opc} {bytes : List Byte} (hseg : pfx.any isSegOrAddrPrefix = false) (h : (!pfx.isEmpty || rexPresent) = true) :
    decodeVex m pfx rexPresent r 1#5 p (vexLastByte top s1 l) (opcByte o :: bytes) = .ud := by
  simp only [decodeVex, opcOf_opcByte, vexLastByte_pp, ne_eq, not_true_eq_false, or_self, if_false, hseg, Bool.false_eq_true,
    if_pos h]

/-- Before a legacy form, a legacy prefix byte joins the prefixes of the form: none, or 66H. -/
theorem decode_prefixed_legacy {m : Mode} {q : Byte} {i : Instr} (rest : List Byte) (hq : isLegacyPrefix q = true)
    (hwf : i.wf m = true) (hform : formOf i = .mmx ∨ formOf i = .sse) :
    ∃ tail rex o bytes, decode m (q :: (encode i ++ rest)) = decodeLegacy (q :: tail) rex (opcByte o :: bytes) ∧
      ((formOf i = .mmx ∧ tail = [] ∧ o ≠ .qdq) ∨ (formOf i = .sse ∧ tail = [0x66#8])) := by
  have hpfx : LegacyPrefixes [q] := legacyPrefixes_singleton hq
  cases madeBy i with
  | mm h =>
    obtain ⟨ho, hencode, hwfForm, hmmx⟩ := mmInstr_eq_some h
    obtain ⟨hp, -⟩ := wfMmForm_iff.1 ((hwfForm m).symm.trans hwf)
    rw [hencode]
    exact ⟨[], _, _, _, decode_encodeMm hpfx hp, .inl ⟨hmmx, rfl, ho⟩⟩
  | xmm h =>
    subst h
    rw [wf_xmmInstr] at hwf
    obtain ⟨hp, -, -⟩ := wfXmmForm_iff.1 hwf
    rw [encode_xmmInstr]
    exact ⟨_, _, _, _, decode_encodeXmm hpfx hp, .inr ⟨formOf_xmmInstr .., rfl⟩⟩
  | @vex _ l _ _ _ _ h =>
    rw [h, formOf_vexInstr] at hform
    cases l <;> simp at hform

/-- Before a VEX form, any prefixes are seen beside the VEX prefix. -/
theorem decode_prefixed_vex {m : Mode} {pfx : List Byte} {rex : Option Byte} {i : Instr} (rest : List Byte)
    (hpfx : LegacyPrefixes pfx) (hrex : RexTaken m rex) (hwf : i.wf m = true)
    (hform : formOf i = .vex128 ∨ formOf i = .vex256) :
    ∃ r top p s1 l o bytes, decode m (pfx ++ (rex.toList ++ (encode i ++ rest))) =
      decodeVex m pfx rex.isSome r 1#5 p (vexLastByte top s1 l) (opcByte o :: bytes) := by
  cases madeBy i with
  | mm h =>
    obtain ⟨-, -, -, hmmx⟩ := mmInstr_eq_some h
    simp [hmmx] at hform
  | xmm h => simp [h] at hform
  | vex h =>
    subst h
    rw [wf_vexInstr] at hwf
    rw [encode_vexInstr]
    exact ⟨_, _, _, _, _, _, _, decode_encodeVex hpfx hrex hwf⟩

theorem legacy_or_vex (i : Instr) : (formOf i = .mmx ∨ formOf i = .sse) ∨ (formOf i = .vex128 ∨ formOf i = .vex256) := by
  cases formOf i <;> simp

theorem decode_lock {m : Mode} {i : Instr} (rest : List Byte) (hwf : i.wf m = true) :
    decode m (0xF0#8 :: (encode i ++ rest)) = .ud := by
  obtain hlegacy | hvex := legacy_or_vex i
  · obtain ⟨tail, rex, o, bytes, hdec, ⟨-, rfl, ho⟩ | ⟨-, rfl⟩⟩ :=
      decode_prefixed_legacy rest (q := 0xF0#8) (by decide) hwf hlegacy
    · exact hdec.trans (decodeLegacy_lock (.inl ho) (by decide) (by decide))
    · exact hdec.trans (decodeLegacy_lock (.inr (by decide)) (by decide) (by decide))
  · obtain ⟨r, top, p, s1, l, o, bytes, hdec⟩ :=
      decode_prefixed_vex rest (legacyPrefixes_singleton (b := 0xF0#8) (by decide)) (rexTaken_none m) hwf hvex
    exact hdec.trans (decodeVex_prefixed (by decide) rfl)

/-- Settles O20: LOCK is seen in the run of prefixes of every form, and a VEX form admits no prefix at all. -/
theorem lockAndPrefixedVexAreInvalid : Obligations.LockAndPrefixedVexAreInvalid := by
  intro m i rest hwf
  refine ⟨decode_lock rest hwf, fun hvex => ⟨fun q hq => ?_, fun hm rex hr => ?_⟩⟩
  · obtain ⟨hlegacyByte, hseg⟩ : isLegacyPrefix q = true ∧ isSegOrAddrPrefix q = false := by
      revert q
      decide
    obtain ⟨r, top, p, s1, l, o, bytes, hdec⟩ :=
      decode_prefixed_vex rest (legacyPrefixes_singleton hlegacyByte) (rexTaken_none m) hwf hvex
    exact hdec.trans (decodeVex_prefixed (by simp [hseg]) rfl)
  · obtain ⟨r, top, p, s1, l, o, bytes, hdec⟩ :=
      decode_prefixed_vex rest legacyPrefixes_nil (rexTaken_some hm hr) hwf hvex
    exact hdec.trans (decodeVex_prefixed rfl rfl)

theorem decode_segOrAddr {m : Mode} {q : Byte} {i : Instr} (rest : List Byte) (hq : isLegacyPrefix q = true)
    (hseg : isSegOrAddrPrefix q = true) (hwf : i.wf m = true) :
    decode m (q :: (encode i ++ rest)) = .refused .prefixNotAdmitted := by
  obtain hlegacy | hvex := legacy_or_vex i
  · obtain ⟨tail, rex, o, bytes, hdec, ⟨-, rfl, ho⟩ | ⟨-, rfl⟩⟩ := decode_prefixed_legacy rest hq hwf hlegacy
    · exact hdec.trans (decodeLegacy_prefixNotAdmitted (.inl ho) (by simp [undescribed, hseg]))
    · exact hdec.trans (decodeLegacy_prefixNotAdmitted (.inr (by simp)) (by simp [undescribed, hseg]))
  · obtain ⟨r, top, p, s1, l, o, bytes, hdec⟩ :=
      decode_prefixed_vex rest (legacyPrefixes_singleton hq) (rexTaken_none m) hwf hvex
    exact hdec.trans (decodeVex_prefixNotAdmitted (by simp [hseg]))

/-- Settles O21: the prefix is seen in the run of prefixes of the form, and named before anything else is looked at. -/
theorem undescribedPrefixesAreRefused : Obligations.UndescribedPrefixesAreRefused := by
  intro m i rest hwf
  refine ⟨fun q hq => ?_, fun hlegacy q hq => ?_, fun hsse => ?_⟩
  · obtain ⟨hlegacyByte, hseg⟩ : isLegacyPrefix q = true ∧ isSegOrAddrPrefix q = true := by
      revert q
      decide
    exact decode_segOrAddr rest hlegacyByte hseg hwf
  · obtain ⟨hlegacyByte, hrep⟩ : isLegacyPrefix q = true ∧ isRepPrefix q = true := by
      revert q
      decide
    obtain ⟨tail, rex, o, bytes, hdec, ⟨-, rfl, ho⟩ | ⟨-, rfl⟩⟩ := decode_prefixed_legacy rest hlegacyByte hwf hlegacy
    · exact hdec.trans (decodeLegacy_prefixNotAdmitted (.inl ho) (by simp [undescribed, hrep]))
    · exact hdec.trans (decodeLegacy_prefixNotAdmitted (.inr (by simp)) (by simp [undescribed, hrep]))
  · obtain ⟨tail, rex, o, bytes, hdec, ⟨hmmx, -, -⟩ | ⟨-, rfl⟩⟩ :=
      decode_prefixed_legacy rest (q := 0x66#8) (by decide) hwf (.inr hsse)
    · exact absurd (hmmx.symm.trans hsse) nofun
    · exact hdec.trans (decodeLegacy_prefixNotAdmitted (.inr (by decide)) (by decide))

/-! ### Reserved register bits (R65, R79) -/

theorem exists_opcByte {op : Byte} (h : op ∈ [0x60#8, 0x61#8, 0x62#8, 0x6C#8]) : ∃ o, op = opcByte o := by
  simp only [List.mem_cons, List.not_mem_nil, or_false] at h
  obtain rfl | rfl | rfl | rfl := h
  exacts [⟨.bw, rfl⟩, ⟨.wd, rfl⟩, ⟨.dq, rfl⟩, ⟨.qdq, rfl⟩]

theorem exists_mm_opcByte {op : Byte} (h : op ∈ [0x60#8, 0x61#8, 0x62#8]) : ∃ o, op = opcByte o ∧ o ≠ .qdq := by
  simp only [List.mem_cons, List.not_mem_nil, or_false] at h
  obtain rfl | rfl | rfl := h
  exacts [⟨.bw, rfl, nofun⟩, ⟨.wd, rfl, nofun⟩, ⟨.dq, rfl, nofun⟩]

/-- An MMX opcode whose operand bytes are all there is refused when a REX bit would extend one of its register fields. -/
theorem decode_mm_extension {rex : Byte} {o : Opc} {reg : BitVec 3} {rm : RM (BitVec 3)} (rest : List Byte)
    (hrex : isRex rex = true) (ho : o ≠ .qdq) (hfits : fitsBits (rexBits rex).x (rexBits rex).b rm = true)
    (hext : (rexR (some rex) || ((rexBits rex).b && rm.isReg)) = true) :
    decode .mode64 (rex :: 0x0F#8 :: opcByte o :: (encodeRM reg rm ++ rest)) = .refused .mmxRegisterExtension := by
  have htaken : RexTaken .mode64 (some rex) := rexTaken_some rfl hrex
  calc decode .mode64 (rex :: 0x0F#8 :: opcByte o :: (encodeRM reg rm ++ rest))
      _ = decodeLegacy [] (some rex) (opcByte o :: (encodeRM reg rm ++ rest)) := decode_legacy legacyPrefixes_nil htaken
      _ = legacyForm [] (some rex) o reg rm := decodeLegacy_encodeRM (.inl ⟨rfl, ho⟩) hfits
      _ = .refused .mmxRegisterExtension := if_pos hext

theorem decodeVex_reserved {r : Bool} {p : VexPfx} {last : Byte} {o : Opc} {bytes : List Byte}
    (hpp : last.extractLsb' 0 2 = 1#2) (h : ExtBits.bOf p = true ∨ last.getLsbD 6 = false) :
    decodeVex .mode32 [] false r 1#5 p last (opcByte o :: bytes) = .refused .vex32ReservedBits := by
  simp only [decodeVex, opcOf_opcByte, hpp, ne_eq, not_true_eq_false, or_self, if_false, List.any_nil, Bool.false_eq_true,
    List.isEmpty_nil, Bool.not_true, Bool.or_self, h, and_self, if_true]

theorem decode_vex32_reserved {v1 v2 : Byte} {o : Opc} (rest : List Byte) (hnext : v1.extractLsb' 6 2 = 3#2)
    (hmap : v1.extractLsb' 0 5 = 1#5) (hpp : v2.extractLsb' 0 2 = 1#2)
    (hreserved : v1.getLsbD 5 = false ∨ v2.getLsbD 6 = false) :
    decode .mode32 (0xC4#8 :: v1 :: v2 :: opcByte o :: rest) = .refused .vex32ReservedBits := by
  have hvex : isVexNext .mode32 v1 = true := by simp [isVexNext, hnext]
  calc decode .mode32 (0xC4#8 :: v1 :: v2 :: opcByte o :: rest)
      _ = decodeOpcode .mode32 [] none 0xC4#8 (v1 :: v2 :: opcByte o :: rest) :=
        decode_eq_decodeOpcode legacyPrefixes_nil (rexTaken_none _) (by decide) (by decide)
      _ = decodeVex .mode32 [] false (!v1.getLsbD 7) 1#5 (some ⟨v2.getLsbD 7, !v1.getLsbD 6, !v1.getLsbD 5⟩) v2
          (opcByte o :: rest) := by simp [decodeOpcode, hvex, hmap]
      _ = .refused .vex32ReservedBits :=
        decodeVex_reserved hpp (hreserved.imp_left fun h => by rw [ExtBits.bOf, h, Bool.not_false])

/-- Settles O22: with the operand bytes there, only the register bits of an MMX form are left to look at; and the reserved bits of a
VEX prefix are looked at before the operand bytes. -/
theorem reservedRegisterBitsAreRefused : Obligations.ReservedRegisterBitsAreRefused := by
  refine ⟨fun rex op modrm rest hrex hop hmod hext => ?_, fun e op d m rest hop hwf => ?_,
    fun v1 v2 op rest hop hnext hmap hpp hreserved => ?_⟩
  · obtain ⟨o, rfl, ho⟩ := exists_mm_opcByte hop
    have hmodrm : modrm = packFields 3#2 (modrm.extractLsb' 3 3) (modrm.extractLsb' 0 3) := by
      rw [← hmod, packFields_fields]
    rw [hmodrm]
    exact decode_mm_extension (rm := .reg _) rest hrex ho rfl (by simpa [rexR, rexBits, RM.isReg] using hext)
  · obtain ⟨o, rfl, ho⟩ := exists_mm_opcByte hop
    have hfits : fitsBits (rexBits (rexByte true e)).x (rexBits (rexByte true e)).b (.mem m) = true := by
      rw [rexBits_rexByte]
      exact hwf
    exact decode_mm_extension (rex := rexByte true e) rest (isRex_rexByte true e) ho hfits
      (by rw [rexR_rexByte, Bool.true_or])
  · obtain ⟨o, rfl⟩ := exists_opcByte hop
    exact decode_vex32_reserved rest hnext hmap hpp hreserved

/-! ### VEX.W (R75) -/

theorem vexLastByte_flip (top : Bool) (s1 : VReg) (l : Bool) : vexLastByte top s1 l ^^^ 0x80#8 = vexLastByte (!top) s1 l := by
  revert top s1 l
  decide

theorem encodeVex_some (o : Opc) (l : Bool) (e : ExtBits) (d s1 : VReg) (src : RM VReg) :
    encodeVex o l (some e) d s1 src =
      0xC4#8 :: vexByte1 (regHi d) e.x e.b :: vexLastByte e.w s1 l :: opcByte o :: encodeRM (regLo d) (src.map regLo) := rfl

/-- Only a VEX form with a 3-byte prefix begins with C4H. -/
theorem encode_begins_C4 {i : Instr} {bytes rest : List Byte} (h : 0xC4#8 :: bytes = encode i ++ rest) :
    ∃ o l e d s1 src, i = vexInstr o l (some e) d s1 src := by
  cases madeBy i with
  | @mm _ p _ _ hi =>
    obtain ⟨-, hencode, -, -⟩ := mmInstr_eq_some hi
    rw [hencode] at h
    cases p with
    | none => cases h
    | some e =>
      have hrex : 0xC4#8 = rexByte false e := (List.cons.inj h).1
      have := isRex_rexByte false e
      rw [← hrex] at this
      exact absurd this (by decide)
  | xmm hi =>
    rw [hi, encode_xmmInstr] at h
    cases h
  | @vex _ _ p _ _ _ hi =>
    cases p with
    | none =>
      rw [hi, encode_vexInstr] at h
      cases h
    | some e => exact ⟨_, _, e, _, _, _, hi⟩

/-- The bits of a 3-byte VEX prefix that name no register have no part in the meaning. -/
theorem exec_vexInstr_some (o : Opc) (l : Bool) (e e' : ExtBits) (d s1 : VReg) (src : RM VReg) (s : State) :
    exec (vexInstr o l (some e) d s1 src) s = exec (vexInstr o l (some e') d s1 src) s := by
  cases o <;> cases l <;> rfl

/-- Settles O23: the bytes are the encoding of a 3-byte VEX form, and with W flipped they are that of the same form with its bit W
flipped. -/
theorem vexWChangesNothing : Obligations.VexWChangesNothing := by
  intro m v1 v2 rest i hdec
  obtain ⟨hwf, tail, hbytes⟩ := encodeOfDecodeIsTheBytes m _ i hdec
  obtain ⟨o, l, e, d, s1, src, rfl⟩ := encode_begins_C4 hbytes
  rw [wf_vexInstr] at hwf
  rw [encode_vexInstr, encodeVex_some] at hbytes
  simp only [List.cons_append, List.cons.injEq, true_and] at hbytes
  obtain ⟨rfl, rfl, rfl⟩ := hbytes
  rw [vexLastByte_flip]
  exact ⟨_, decode_encode_vex (p := some ⟨!e.w, e.x, e.b⟩) tail hwf, exec_vexInstr_some o l _ e d s1 src⟩

/-! ### Worked encodings and stops (R61, R63, R68, R74(c), R79, R184) -/

/-- Settles O15: each word is the encoding of its instruction, so it decodes to it. -/
theorem workedEncodingsDecode : Obligations.WorkedEncodingsDecode :=
  have round := fun i => decodeOfEncodeIsTheInstruction .mode64 i []
  ⟨round (.punpcklbwMm none 0 (.reg 1)) rfl, round (.punpcklqdqXmm (some ⟨false, false, false⟩) 8 (.reg 1)) rfl,
    round (.vpunpcklwdXmm none 1 2 (.mem (.sib 2#2 1 0 (.d8 0x08#8)))) rfl,
    round (.vpunpckldqYmm none 3 2 (.mem (.base 3 .none))) rfl, rfl⟩

theorem fetch_eq_endOfRun {s : State} (hl : launchOk s = true) (hpc : pcOffset s = s.program.length) :
    fetch s = .error .endOfRun := by
  simp [fetch, hl, hpc]

/-- Settles O43: the fetch is the decoder's answer, or the end of the run, and the step passes it on. -/
theorem stepStopsByName : Obligations.StepStopsByName := by
  intro s hl
  refine ⟨fun hpc hdec => ?_, fun r hpc hdec => ?_, fun hpc => ?_⟩
  · simp [step, Scope.fetch_eq_decode hl hpc, hdec, raise]
  · simp [step, Scope.fetch_eq_decode hl hpc, hdec]
  · simp [step, fetch_eq_endOfRun hl hpc]

/-! ### Effective addresses (R66, R67)

Every part of an effective address is the value of an integer in the width of an address, and so is their sum. -/

/-- The integer that the address of a memory operand is the value of; `rel` is what a bare `disp32` is added to. -/
def addrInt (rel : Int) (s : State) : MemOp → Int
  | .base b d => (s.readGpr b).toNat + dispInt d
  | .disp32 v => rel + v.toInt
  | .sib scale i b d => (s.readGpr b).toNat + scaledIndex s scale i + dispInt d
  | .sibDisp32 scale i v => scaledIndex s scale i + v.toInt

theorem dispValue_eq_ofInt (w : Nat) (d : Disp) : dispValue w d = BitVec.ofInt w (dispInt d) := by
  cases d <;> simp [dispValue, dispInt, BitVec.signExtend]

theorem gprAddr_eq_ofInt (w : Nat) (s : State) (r : GReg) : gprAddr w s r = BitVec.ofInt w (s.readGpr r).toNat := by
  rw [BitVec.ofInt_natCast, gprAddr, BitVec.ofNat_toNat]

theorem indexValue_eq_ofInt (w : Nat) (s : State) (scale : BitVec 2) (i : GReg) :
    indexValue w s scale i = BitVec.ofInt w (scaledIndex s scale i) := by
  rw [BitVec.ofInt_natCast, indexValue, scaledIndex]
  split
  next => rfl
  next =>
    refine BitVec.eq_of_toNat_eq ?_
    simp [gprAddr, Nat.shiftLeft_eq]

theorem effAddrIn_eq_ofInt {w : Nat} {rel : BitVec w} {r : Int} (s : State) (m : MemOp) (hrel : rel = BitVec.ofInt w r) :
    (effAddrIn w rel s m).2 = BitVec.ofInt w (addrInt r s m) := by
  cases m <;>
    simp only [effAddrIn, addrInt, hrel, dispValue_eq_ofInt, gprAddr_eq_ofInt, indexValue_eq_ofInt, BitVec.ofInt_add,
      BitVec.signExtend]

theorem toNat_ofInt_eq_emod (w : Nat) (z : Int) : ((BitVec.ofInt w z).toNat : Int) = z % 2 ^ w := by
  rw [BitVec.toNat_ofInt, Int.toNat_of_nonneg (Int.emod_nonneg z (by positivity)), Nat.cast_pow, Nat.cast_ofNat]

theorem effAddr_mode64 {s : State} (hm : s.env.mode = .mode64) (len : Nat) (m : MemOp) :
    (effAddr s len m).1 = (effAddrIn 64 (nextPc s len) s m).1 ∧
      ((effAddr s len m).2.toNat : Int) = addrInt (s.pc.toNat + len) s m % 2 ^ 64 := by
  have hrel : nextPc s len = BitVec.ofInt 64 (s.pc.toNat + len) := by
    simp [nextPc, hm, truncAddr, BitVec.ofInt_add]
  simp only [effAddr, hm]
  exact ⟨trivial, by rw [effAddrIn_eq_ofInt s m hrel, toNat_ofInt_eq_emod]⟩

theorem effAddr_mode32 {s : State} (hm : s.env.mode = .mode32) (len : Nat) (m : MemOp) :
    (effAddr s len m).1 = (effAddrIn 32 0 s m).1 ∧ ((effAddr s len m).2.toNat : Int) = addrInt 0 s m % 2 ^ 32 := by
  have hwidth : ((effAddrIn 32 0 s m).2.setWidth 64).toNat = (effAddrIn 32 0 s m).2.toNat :=
    BitVec.toNat_setWidth_of_le (by decide)
  simp only [effAddr, hm, hwidth]
  exact ⟨trivial, by rw [effAddrIn_eq_ofInt s m (rel := 0) (r := 0) rfl, toNat_ofInt_eq_emod]⟩

/-- Settles O13: the four shapes of the sum, modulo `2^64`. -/
theorem effectiveAddressInMode64 : Obligations.EffectiveAddressInMode64 := by
  intro s len hm
  exact ⟨fun b d => effAddr_mode64 hm len (.base b d), fun v => effAddr_mode64 hm len (.disp32 v),
    fun sc i b d => effAddr_mode64 hm len (.sib sc i b d), fun sc i v => effAddr_mode64 hm len (.sibDisp32 sc i v)⟩

/-- Settles O14: the four shapes of the sum, modulo `2^32`. -/
theorem effectiveAddressInMode32 : Obligations.EffectiveAddressInMode32 := by
  intro s len hm
  refine ⟨fun b d => effAddr_mode32 hm len (.base b d), fun v => ⟨(effAddr_mode32 hm len (.disp32 v)).1, ?_⟩,
    fun sc i b d => effAddr_mode32 hm len (.sib sc i b d), fun sc i v => effAddr_mode32 hm len (.sibDisp32 sc i v)⟩
  have hsum : (effAddrIn 32 0 s (.disp32 v)).2 = v := by
    rw [effAddrIn, BitVec.signExtend_eq]
    exact BitVec.zero_add v
  simp only [effAddr, hm, hsum]
  exact BitVec.toNat_setWidth_of_le (by decide)

end Sys2Proof.Proofs.Encoding
end

section
/-! SUPPORT. Proofs of the statements of 40_interleave_functions.md. The alternation of elements that R100 states determines the
result, so each of the three forms is characterised by it once, and every other rule of the file is a fact about `Alternates`. -/

namespace Sys2Proof.Proofs.Interleave

open Sys2Proof Sys2Proof.Machine

/-! ### Slices of `w` bits -/

theorem slice_end_le {w i count : Nat} (hi : i < count) : w * i + w ≤ w * count :=
  Nat.mul_le_mul_left w (Nat.succ_le_of_lt hi)

theorem extractLsb'_extractLsb'_add {n len pos k : Nat} (v : BitVec n) (lo : Nat) (h : pos + k ≤ len) :
    (v.extractLsb' lo len).extractLsb' pos k = v.extractLsb' (lo + pos) k := by
  refine BitVec.eq_of_getLsbD_eq fun j hj => ?_
  have hin : pos + j < len := by omega
  simp [hj, hin, Nat.add_assoc]

/-- Slices that agree agree in every part. -/
theorem extractLsb'_congr_of_le {n len pos k lo : Nat} {v v' : BitVec n} (h : pos + k ≤ len)
    (hv : v.extractLsb' lo len = v'.extractLsb' lo len) : v.extractLsb' (lo + pos) k = v'.extractLsb' (lo + pos) k := by
  rw [← extractLsb'_extractLsb'_add v lo h, hv, extractLsb'_extractLsb'_add v' lo h]

/-- A value is its slices. -/
theorem eq_of_slices {n w count : Nat} {x y : BitVec n} (hw : 0 < w) (hn : n ≤ w * count)
    (h : ∀ i, i < count → x.extractLsb' (w * i) w = y.extractLsb' (w * i) w) : x = y := by
  refine BitVec.eq_of_getLsbD_eq fun j hj => ?_
  have hslice := h (j / w) (Nat.div_lt_of_lt_mul (by omega))
  have hbit := congrArg (BitVec.getLsbD · (j % w)) hslice
  simpa [Nat.mod_lt j hw, Nat.div_add_mod] using hbit

/-! ### The general form alternates elements, and nothing else does (R100) -/

section Alternation

variable {k l n m w count : Nat}

theorem interleaveBit_even (a : BitVec n) (b : BitVec m) (i : Nat) {j : Nat} (hj : j < w) :
    interleaveBit w a b (2 * w * i + j) = a.getLsbD (w * i + j) := by
  have hassoc : 2 * w * i + j = w * (2 * i) + j := by ring
  have hdouble : (2 * w * i + j) / (2 * w) = i := by
    rw [Nat.mul_add_div (by omega), Nat.div_eq_of_lt (by omega), Nat.add_zero]
  have helement : (2 * w * i + j) / w = 2 * i := by
    rw [hassoc, Nat.mul_add_div (by omega), Nat.div_eq_of_lt hj, Nat.add_zero]
  have hbit : (2 * w * i + j) % w = j := by
    rw [hassoc, Nat.mul_add_mod, Nat.mod_eq_of_lt hj]
  simp [interleaveBit, hdouble, helement, hbit]

theorem interleaveBit_odd (a : BitVec n) (b : BitVec m) (i : Nat) {j : Nat} (hj : j < w) :
    interleaveBit w a b (2 * w * i + w + j) = b.getLsbD (w * i + j) := by
  have hassoc : 2 * w * i + w + j = w * (2 * i + 1) + j := by ring
  have hdouble : (2 * w * i + w + j) / (2 * w) = i := by
    rw [Nat.add_assoc, Nat.mul_add_div (by omega), Nat.div_eq_of_lt (by omega), Nat.add_zero]
  have helement : (2 * w * i + w + j) / w = 2 * i + 1 := by
    rw [hassoc, Nat.mul_add_div (by omega), Nat.div_eq_of_lt hj, Nat.add_zero]
  have hbit : (2 * w * i + w + j) % w = j := by
    rw [hassoc, Nat.mul_add_mod, Nat.mod_eq_of_lt hj]
  simp [interleaveBit, hdouble, helement, hbit, Nat.add_mod]

theorem alternates_interleaveBit (hk : 2 * w * count ≤ k) (a : BitVec n) (b : BitVec m) :
    Alternates w 0 count (BitVec.ofFnLE fun j : Fin k => interleaveBit w a b j.val) a b := by
  intro i hi
  have hend : 2 * w * i + 2 * w ≤ k := (slice_end_le hi).trans hk
  constructor
  · refine BitVec.eq_of_getLsbD_eq fun j hj => ?_
    have hin : 2 * w * i + j < k := by omega
    simp [hj, hin, interleaveBit_even]
  · refine BitVec.eq_of_getLsbD_eq fun j hj => ?_
    have hin : 2 * w * i + w + j < k := by omega
    simp [hj, hin, interleaveBit_odd]

theorem alternates_unique {r r' : BitVec k} {a : BitVec n} {b : BitVec m} (hw : 0 < w) (hk : k ≤ 2 * w * count)
    (h : Alternates w 0 count r a b) (h' : Alternates w 0 count r' a b) : r = r' := by
  refine eq_of_slices hw (count := 2 * count) (hk.trans_eq (by ring)) fun i hi => ?_
  obtain ⟨p, rfl | rfl⟩ := Nat.even_or_odd' i
  · have heven : w * (2 * p) = 0 + 2 * w * p := by ring
    rw [heven, (h p (by omega)).1, (h' p (by omega)).1]
  · have hodd : w * (2 * p + 1) = 0 + 2 * w * p + w := by ring
    rw [hodd, (h p (by omega)).2, (h' p (by omega)).2]

theorem alternates_iff_eq_ofFnLE {r : BitVec k} {a : BitVec n} {b : BitVec m} (hw : 0 < w) (hk : 2 * w * count = k) :
    Alternates w 0 count r a b ↔ r = BitVec.ofFnLE fun j : Fin k => interleaveBit w a b j.val :=
  ⟨fun h => alternates_unique hw hk.ge h (alternates_interleaveBit hk.le a b),
    fun h => h ▸ alternates_interleaveBit hk.le a b⟩

/-- To alternate from bit `lane` on is to alternate within the slice that begins there. -/
theorem alternates_extractLsb'_iff {r : BitVec k} {a : BitVec n} {b : BitVec m} (lane : Nat) (hl : 2 * w * count ≤ l) :
    Alternates w 0 count (r.extractLsb' lane l) (a.extractLsb' lane l) (b.extractLsb' lane l) ↔
      Alternates w lane count r a b := by
  refine forall₂_congr fun i hi => ?_
  have hpair : 2 * w * i + 2 * w ≤ l := (slice_end_le hi).trans hl
  have hsource : w * i + w ≤ l := by
    rw [Nat.mul_assoc] at hpair
    omega
  simp only [Nat.zero_add]
  rw [extractLsb'_extractLsb'_add r lane (by omega), extractLsb'_extractLsb'_add r lane (by omega),
    extractLsb'_extractLsb'_add a lane hsource, extractLsb'_extractLsb'_add b lane hsource, Nat.add_assoc lane]

end Alternation

/-! ### The three forms -/

theorem width128_counts : ∀ w ∈ [8, 16, 32, 64], 0 < w ∧ w * (64 / w) = 64 ∧ 2 * w * (64 / w) = 128 := by decide

theorem width64_counts : ∀ w ∈ [8, 16, 32], 0 < w ∧ w * (32 / w) = 32 ∧ 2 * w * (32 / w) = 64 := by decide

theorem alternates_iff_eq_interleave {w : Nat} (h : w ∈ [8, 16, 32, 64]) {r a b : BitVec 128} :
    Alternates w 0 (64 / w) r a b ↔ r = interleave w a b := by
  obtain ⟨hw, -, hpairs⟩ := width128_counts w h
  exact alternates_iff_eq_ofFnLE hw hpairs

theorem alternates_interleave {w : Nat} (h : w ∈ [8, 16, 32, 64]) (a b : BitVec 128) :
    Alternates w 0 (64 / w) (interleave w a b) a b :=
  (alternates_iff_eq_interleave h).2 rfl

theorem alternates_iff_eq_interleave64 {w : Nat} (h : w ∈ [8, 16, 32]) {r a : BitVec 64} {b : BitVec 32} :
    Alternates w 0 (32 / w) r a b ↔ r = interleave64 w a b := by
  obtain ⟨hw, -, hpairs⟩ := width64_counts w h
  exact alternates_iff_eq_ofFnLE hw hpairs

theorem alternates_interleave64 {w : Nat} (h : w ∈ [8, 16, 32]) (a : BitVec 64) (b : BitVec 32) :
    Alternates w 0 (32 / w) (interleave64 w a b) a b :=
  (alternates_iff_eq_interleave64 h).2 rfl

@[simp] theorem joinLanes_lane_lo (hi lo : BitVec 128) : (joinLanes hi lo).extractLsb' 0 128 = lo :=
  BitVec.extractLsb'_append_eq_right

@[simp] theorem joinLanes_lane_hi (hi lo : BitVec 128) : (joinLanes hi lo).extractLsb' 128 128 = hi :=
  BitVec.extractLsb'_append_eq_left

theorem joinLanes_lanes (v : BitVec 256) : joinLanes (v.extractLsb' 128 128) (v.extractLsb' 0 128) = v :=
  (BitVec.extractLsb'_append_extractLsb'_eq_extractLsb' (len₁ := 128) (len₂ := 128) rfl).trans BitVec.extractLsb'_eq_self

theorem eq_joinLanes_iff {hi lo : BitVec 128} {v : BitVec 256} :
    v = joinLanes hi lo ↔ v.extractLsb' 128 128 = hi ∧ v.extractLsb' 0 128 = lo := by
  constructor
  · rintro rfl
    exact ⟨joinLanes_lane_hi hi lo, joinLanes_lane_lo hi lo⟩
  · rintro ⟨rfl, rfl⟩
    exact (joinLanes_lanes v).symm

theorem forall_lane_iff {P : Nat → Prop} : (∀ lane ∈ [0, 128], P lane) ↔ P 0 ∧ P 128 := by
  simp

theorem alternates_iff_eq_interleave256 {w : Nat} (h : w ∈ [8, 16, 32, 64]) {r a b : BitVec 256} :
    (∀ lane ∈ [0, 128], Alternates w lane (64 / w) r a b) ↔ r = interleave256 w a b := by
  obtain ⟨-, -, hpairs⟩ := width128_counts w h
  rw [interleave256, eq_joinLanes_iff, ← alternates_iff_eq_interleave h, ← alternates_iff_eq_interleave h,
    alternates_extractLsb'_iff 128 hpairs.le, alternates_extractLsb'_iff 0 hpairs.le, forall_lane_iff, and_comm]

theorem alternates_interleave256 {w lane : Nat} (h : w ∈ [8, 16, 32, 64]) (hlane : lane ∈ [0, 128]) (a b : BitVec 256) :
    Alternates w lane (64 / w) (interleave256 w a b) a b :=
  (alternates_iff_eq_interleave256 h).2 rfl lane hlane

/-- Settles O1: the two equations of R100 are what alternation says, and the lanes are read back from their concatenation. -/
theorem generalFormAlternatesElements : Obligations.GeneralFormAlternatesElements :=
  ⟨fun _ hw => alternates_interleave hw, fun _ hw => alternates_interleave64 hw,
    fun _ _ _ _ => ⟨joinLanes_lane_lo _ _, joinLanes_lane_hi _ _⟩⟩

/-! ### The listings, a pair of elements at a time (R90 to R98)

A listing is peeled from its low end: below the bits `upper` stands one more pair, an element of `b` above one of `a`. -/

section Listings

variable {k n m w off pos count : Nat}

/-- From bit `off` on, the elements of `r` alternate between those of `a` and of `b` from bit `pos` on. -/
def PairsFrom (w off pos count : Nat) (r : BitVec k) (a : BitVec n) (b : BitVec m) : Prop :=
  ∀ i, i < count →
    r.extractLsb' (off + 2 * w * i) w = a.extractLsb' (pos + w * i) w ∧
    r.extractLsb' (off + 2 * w * i + w) w = b.extractLsb' (pos + w * i) w

theorem PairsFrom.alternates {lane : Nat} {r : BitVec k} {a : BitVec n} {b : BitVec m} (h : PairsFrom w lane lane count r a b) :
    Alternates w lane count r a b :=
  h

theorem pairsFrom_zero {r : BitVec k} {a : BitVec n} {b : BitVec m} : PairsFrom w off pos 0 r a b :=
  fun _ hi => absurd hi (Nat.not_lt_zero _)

/-- Bits above a pair are bits of the listing without it. -/
theorem extractLsb'_append_pair (upper : BitVec k) (y x : BitVec w) (pos len : Nat) :
    (upper ++ y ++ x).extractLsb' (pos + 2 * w) len = upper.extractLsb' pos len := by
  rw [BitVec.extractLsb'_append_eq_of_le (by omega), BitVec.extractLsb'_append_eq_of_le (by omega)]
  congr 1
  omega

theorem PairsFrom.append {upper : BitVec k} {a : BitVec n} {b : BitVec m} (h : PairsFrom w 0 (pos + w) count upper a b) :
    PairsFrom w 0 pos (count + 1) (upper ++ b.extractLsb' pos w ++ a.extractLsb' pos w) a b := by
  intro i hi
  cases i with
  | zero =>
    refine ⟨by simp [BitVec.extractLsb'_append_eq_right], ?_⟩
    rw [BitVec.extractLsb'_append_eq_of_le (by omega)]
    simp [BitVec.extractLsb'_append_eq_right]
  | succ i =>
    obtain ⟨heven, hodd⟩ := h i (Nat.lt_of_succ_lt_succ hi)
    have hsource : pos + w * (i + 1) = pos + w + w * i := by ring
    have hlo : 0 + 2 * w * (i + 1) = 0 + 2 * w * i + 2 * w := by ring
    have hhi : 0 + 2 * w * (i + 1) + w = 0 + 2 * w * i + w + 2 * w := by ring
    rw [hsource, hhi, hlo, extractLsb'_append_pair, extractLsb'_append_pair]
    exact ⟨heven, hodd⟩

/-- The highest pair of a listing, with nothing above it. -/
theorem pairsFrom_top {a : BitVec n} {b : BitVec m} :
    PairsFrom w 0 pos 1 (b.extractLsb' pos w ++ a.extractLsb' pos w) a b := by
  intro i hi
  obtain rfl : i = 0 := by omega
  simp [BitVec.extractLsb'_append_eq_right, BitVec.extractLsb'_append_eq_left]

/-- A pair below the bits looked at only moves them up. -/
theorem PairsFrom.skip {upper : BitVec k} {a : BitVec n} {b : BitVec m} {y x : BitVec w}
    (h : PairsFrom w off pos count upper a b) : PairsFrom w (off + 2 * w) pos count (upper ++ y ++ x) a b := by
  intro i hi
  have hlo : off + 2 * w + 2 * w * i = off + 2 * w * i + 2 * w := by omega
  have hhi : off + 2 * w + 2 * w * i + w = off + 2 * w * i + w + 2 * w := by omega
  rw [hhi, hlo, extractLsb'_append_pair, extractLsb'_append_pair]
  exact h i hi

end Listings

theorem alternates_interleaveBytes64 (d : BitVec 64) (s : BitVec 32) : Alternates 8 0 4 (interleaveBytes64 d s) d s :=
  pairsFrom_top.append.append.append.alternates

theorem alternates_interleaveWords64 (d : BitVec 64) (s : BitVec 32) : Alternates 16 0 2 (interleaveWords64 d s) d s :=
  pairsFrom_top.append.alternates

theorem alternates_interleaveDwords64 (d : BitVec 64) (s : BitVec 32) : Alternates 32 0 1 (interleaveDwords64 d s) d s :=
  pairsFrom_top.alternates

theorem alternates_interleaveBytes (a b : BitVec 128) : Alternates 8 0 8 (interleaveBytes a b) a b :=
  pairsFrom_top.append.append.append.append.append.append.append.alternates

theorem alternates_interleaveWords (a b : BitVec 128) : Alternates 16 0 4 (interleaveWords a b) a b :=
  pairsFrom_top.append.append.append.alternates

theorem alternates_interleaveDwords (a b : BitVec 128) : Alternates 32 0 2 (interleaveDwords a b) a b :=
  pairsFrom_top.append.alternates

theorem alternates_interleaveQwords (a b : BitVec 128) : Alternates 64 0 1 (interleaveQwords a b) a b :=
  pairsFrom_top.alternates

/-! In a 256-bit listing the low lane's pairs stand below bits that do not matter to it, and the high lane's above pairs that do
not. -/

theorem alternates_interleaveBytes256 (a b : BitVec 256) :
    ∀ lane ∈ [0, 128], Alternates 8 lane 8 (interleaveBytes256 a b) a b :=
  forall_lane_iff.2 ⟨pairsFrom_zero.append.append.append.append.append.append.append.append.alternates,
    pairsFrom_top.append.append.append.append.append.append.append.skip.skip.skip.skip.skip.skip.skip.skip.alternates⟩

theorem alternates_interleaveWords256 (a b : BitVec 256) :
    ∀ lane ∈ [0, 128], Alternates 16 lane 4 (interleaveWords256 a b) a b :=
  forall_lane_iff.2 ⟨pairsFrom_zero.append.append.append.append.alternates,
    pairsFrom_top.append.append.append.skip.skip.skip.skip.alternates⟩

theorem alternates_interleaveDwords256 (a b : BitVec 256) :
    ∀ lane ∈ [0, 128], Alternates 32 lane 2 (interleaveDwords256 a b) a b :=
  forall_lane_iff.2 ⟨pairsFrom_zero.append.append.alternates, pairsFrom_top.append.skip.skip.alternates⟩

theorem alternates_interleaveQwords256 (a b : BitVec 256) :
    ∀ lane ∈ [0, 128], Alternates 64 lane 1 (interleaveQwords256 a b) a b :=
  forall_lane_iff.2 ⟨pairsFrom_zero.append.alternates, pairsFrom_top.skip.alternates⟩

/-- Settles O2: the slices determine the result, so each listing equals the general form. -/
theorem listings64AlternateLowElements : Obligations.Listings64AlternateLowElements := by
  intro d s
  have hbytes := alternates_interleaveBytes64 d s
  have hwords := alternates_interleaveWords64 d s
  have hdwords := alternates_interleaveDwords64 d s
  exact ⟨⟨hbytes, (alternates_iff_eq_interleave64 (by decide)).1 hbytes⟩,
    ⟨hwords, (alternates_iff_eq_interleave64 (by decide)).1 hwords⟩,
    ⟨hdwords, (alternates_iff_eq_interleave64 (by decide)).1 hdwords⟩⟩

/-- Settles O3: the slices determine the result, so each function equals the general form. -/
theorem functions128AlternateLowElements : Obligations.Functions128AlternateLowElements := by
  intro a b
  have hbytes := alternates_interleaveBytes a b
  have hwords := alternates_interleaveWords a b
  have hdwords := alternates_interleaveDwords a b
  have hqwords := alternates_interleaveQwords a b
  exact ⟨⟨hbytes, (alternates_iff_eq_interleave (by decide)).1 hbytes⟩,
    ⟨hwords, (alternates_iff_eq_interleave (by decide)).1 hwords⟩,
    ⟨hdwords, (alternates_iff_eq_interleave (by decide)).1 hdwords⟩,
    ⟨hqwords, (alternates_iff_eq_interleave (by decide)).1 hqwords⟩⟩

/-- Settles O4: the slices of both lanes determine the result, so each function equals the general form. -/
theorem functions256AlternateWithinLanes : Obligations.Functions256AlternateWithinLanes := by
  intro a b
  have hbytes := alternates_interleaveBytes256 a b
  have hwords := alternates_interleaveWords256 a b
  have hdwords := alternates_interleaveDwords256 a b
  have hqwords := alternates_interleaveQwords256 a b
  exact ⟨⟨hbytes, (alternates_iff_eq_interleave256 (by decide)).1 hbytes⟩,
    ⟨hwords, (alternates_iff_eq_interleave256 (by decide)).1 hwords⟩,
    ⟨hdwords, (alternates_iff_eq_interleave256 (by decide)).1 hdwords⟩,
    ⟨hqwords, (alternates_iff_eq_interleave256 (by decide)).1 hqwords⟩⟩

/-! ### The ignored high-order halves (R101) -/

section Elements

variable {k l n m w lane count : Nat}

/-- Alternation reads of each source only the `count` elements from bit `lane` on. -/
theorem alternates_of_low_slices_eq {r : BitVec k} {a a' : BitVec n} {b b' : BitVec m} (h : Alternates w lane count r a b)
    (ha : a.extractLsb' lane (w * count) = a'.extractLsb' lane (w * count))
    (hb : b.extractLsb' lane (w * count) = b'.extractLsb' lane (w * count)) : Alternates w lane count r a' b' := by
  intro i hi
  obtain ⟨heven, hodd⟩ := h i hi
  exact ⟨heven.trans (extractLsb'_congr_of_le (slice_end_le hi) ha), hodd.trans (extractLsb'_congr_of_le (slice_end_le hi) hb)⟩

/-- Over a second source of zeros each pair is the first source's element, zero-extended (R102). -/
theorem pair_eq_setWidth_of_alternates_zero {r : BitVec k} {a : BitVec n} (h : Alternates w lane count r a 0#m) {i : Nat}
    (hi : i < count) :
    r.extractLsb' (lane + 2 * w * i) (2 * w) = (a.extractLsb' (lane + w * i) w).setWidth (2 * w) := by
  obtain ⟨heven, hodd⟩ := h i hi
  rw [BitVec.extractLsb'_zero] at hodd
  refine BitVec.eq_of_getLsbD_eq fun j hj => ?_
  by_cases hlow : j < w
  · have hbit := congrArg (BitVec.getLsbD · j) heven
    simpa [hj, hlow] using hbit
  · have hbit := congrArg (BitVec.getLsbD · (j - w)) hodd
    have hin : j - w < w := by omega
    have hpos : lane + 2 * w * i + w + (j - w) = lane + 2 * w * i + j := by omega
    simpa [hj, hlow, hin, hpos] using hbit

end Elements

theorem interleave_eq_of_low_halves {w : Nat} (h : w ∈ [8, 16, 32, 64]) {a b a' b' : BitVec 128}
    (ha : a.extractLsb' 0 64 = a'.extractLsb' 0 64) (hb : b.extractLsb' 0 64 = b'.extractLsb' 0 64) :
    interleave w a b = interleave w a' b' := by
  obtain ⟨-, hhalf, -⟩ := width128_counts w h
  rw [← hhalf] at ha hb
  exact (alternates_iff_eq_interleave h).1 (alternates_of_low_slices_eq (alternates_interleave h a b) ha hb)

theorem interleave64_eq_of_low_halves {w : Nat} (h : w ∈ [8, 16, 32]) {a a' : BitVec 64} (b : BitVec 32)
    (ha : a.extractLsb' 0 32 = a'.extractLsb' 0 32) : interleave64 w a b = interleave64 w a' b := by
  obtain ⟨-, hhalf, -⟩ := width64_counts w h
  rw [← hhalf] at ha
  exact (alternates_iff_eq_interleave64 h).1 (alternates_of_low_slices_eq (alternates_interleave64 h a b) ha rfl)

theorem lane_low_half_congr {a a' : BitVec 256} {lane : Nat} (h : a.extractLsb' lane 64 = a'.extractLsb' lane 64) :
    (a.extractLsb' lane 128).extractLsb' 0 64 = (a'.extractLsb' lane 128).extractLsb' 0 64 := by
  rwa [extractLsb'_extractLsb'_add a lane (by decide), extractLsb'_extractLsb'_add a' lane (by decide)]

/-- Settles O5: the elements that alternate are those of the low halves. -/
theorem highOrderElementsAreIgnored : Obligations.HighOrderElementsAreIgnored := by
  refine ⟨fun w hw a b a' b' => interleave_eq_of_low_halves hw, fun w hw a a' b => interleave64_eq_of_low_halves hw b, ?_⟩
  intro w hw a b a' b' halo hahi hblo hbhi
  rw [interleave256, interleave256, interleave_eq_of_low_halves hw (lane_low_half_congr hahi) (lane_low_half_congr hbhi),
    interleave_eq_of_low_halves hw (lane_low_half_congr halo) (lane_low_half_congr hblo)]

/-! ### A zero second source (R102) -/

theorem interleave_zero_pair {w : Nat} (h : w ∈ [8, 16, 32, 64]) (a : BitVec 128) {i : Nat} (hi : i < 64 / w) :
    (interleave w a 0#128).extractLsb' (2 * w * i) (2 * w) = (a.extractLsb' (w * i) w).setWidth (2 * w) := by
  simpa using pair_eq_setWidth_of_alternates_zero (alternates_interleave h a 0#128) hi

theorem interleave64_zero_pair {w : Nat} (h : w ∈ [8, 16, 32]) (a : BitVec 64) {i : Nat} (hi : i < 32 / w) :
    (interleave64 w a 0#32).extractLsb' (2 * w * i) (2 * w) = (a.extractLsb' (w * i) w).setWidth (2 * w) := by
  simpa using pair_eq_setWidth_of_alternates_zero (alternates_interleave64 h a 0#32) hi

/-- Settles O6: the odd element of each pair is an element of zero. -/
theorem zeroSecondSourceZeroExtends : Obligations.ZeroSecondSourceZeroExtends :=
  ⟨fun _ hw a _ hi => interleave_zero_pair hw a hi, fun _ hw a _ hi => interleave64_zero_pair hw a hi,
    fun _ hw _ hlane a _ hi => pair_eq_setWidth_of_alternates_zero (alternates_interleave256 hw hlane a 0#256) hi⟩

/-! ### Each interleave is a bijection (R104(c)) -/

/-- Every other element of `w` bits of `v`, the first at bit `off`, packed into `n` bits: the inverse of an interleave, for `off` 0
in the first source and for `off` `w` in the second. -/
def everyOther {l : Nat} (n w off : Nat) (v : BitVec l) : BitVec n :=
  BitVec.ofFnLE fun j : Fin n => v.getLsbD (2 * w * (j.val / w) + off + j.val % w)

section Inverse

variable {k l m n w off count : Nat}

theorem everyOther_slice (v : BitVec l) {i : Nat} (hi : w * i + w ≤ n) :
    (everyOther n w off v).extractLsb' (w * i) w = v.extractLsb' (2 * w * i + off) w := by
  refine BitVec.eq_of_getLsbD_eq fun j hj => ?_
  have hin : w * i + j < n := by omega
  have helement : (w * i + j) / w = i := by
    rw [Nat.mul_add_div (by omega), Nat.div_eq_of_lt hj, Nat.add_zero]
  simp [everyOther, hj, hin, helement, Nat.mod_eq_of_lt hj]

theorem eq_everyOther_iff {a : BitVec n} {v : BitVec l} (hw : 0 < w) (hn : w * count = n) :
    a = everyOther n w off v ↔ ∀ i, i < count → v.extractLsb' (2 * w * i + off) w = a.extractLsb' (w * i) w := by
  constructor
  · rintro rfl i hi
    exact (everyOther_slice v ((slice_end_le hi).trans_eq hn)).symm
  · intro h
    refine eq_of_slices hw hn.ge fun i hi => ?_
    rw [← h i hi, everyOther_slice v ((slice_end_le hi).trans_eq hn)]

/-- Low halves alternate in `v` exactly when they are every other element of `v`. -/
theorem alternates_setWidth_iff {v : BitVec l} {a b : BitVec n} (hw : 0 < w) (hn : w * count = n) (hk : n ≤ k) (hm : n ≤ m) :
    Alternates w 0 count v (a.setWidth k) (b.setWidth m) ↔ a = everyOther n w 0 v ∧ b = everyOther n w w v := by
  rw [eq_everyOther_iff hw hn, eq_everyOther_iff hw hn, ← forall₂_and]
  refine forall₂_congr fun i hi => ?_
  have hin : w * i + w ≤ n := (slice_end_le hi).trans_eq hn
  rw [Nat.zero_add, Nat.zero_add, BitVec.extractLsb'_setWidth_of_le (hin.trans hk),
    BitVec.extractLsb'_setWidth_of_le (hin.trans hm), Nat.add_zero]

end Inverse

theorem eq_interleave_setWidth_iff {w : Nat} (h : w ∈ [8, 16, 32, 64]) {v : BitVec 128} {a b : BitVec 64} :
    v = interleave w (a.setWidth 128) (b.setWidth 128) ↔ a = everyOther 64 w 0 v ∧ b = everyOther 64 w w v := by
  obtain ⟨hw, hhalf, -⟩ := width128_counts w h
  rw [← alternates_iff_eq_interleave h, alternates_setWidth_iff hw hhalf (by decide) (by decide)]

theorem eq_interleave64_setWidth_iff {w : Nat} (h : w ∈ [8, 16, 32]) {v : BitVec 64} {a b : BitVec 32} :
    v = interleave64 w (a.setWidth 64) b ↔ a = everyOther 32 w 0 v ∧ b = everyOther 32 w w v := by
  obtain ⟨hw, hhalf, -⟩ := width64_counts w h
  rw [← alternates_iff_eq_interleave64 h, ← alternates_setWidth_iff hw hhalf (k := 64) (m := 32) (by decide) le_rfl,
    BitVec.setWidth_eq]

theorem interleave256_joinLanes (w : Nat) (ahi alo bhi blo : BitVec 128) :
    interleave256 w (joinLanes ahi alo) (joinLanes bhi blo) = joinLanes (interleave w ahi bhi) (interleave w alo blo) := by
  simp [interleave256]

theorem eq_interleave256_setWidth_iff {w : Nat} (h : w ∈ [8, 16, 32, 64]) {v : BitVec 256} {ahi alo bhi blo : BitVec 64} :
    v = interleave256 w (joinLanes (ahi.setWidth 128) (alo.setWidth 128)) (joinLanes (bhi.setWidth 128) (blo.setWidth 128)) ↔
      (ahi = everyOther 64 w 0 (v.extractLsb' 128 128) ∧ bhi = everyOther 64 w w (v.extractLsb' 128 128)) ∧
        alo = everyOther 64 w 0 (v.extractLsb' 0 128) ∧ blo = everyOther 64 w w (v.extractLsb' 0 128) := by
  rw [interleave256_joinLanes, eq_joinLanes_iff, eq_interleave_setWidth_iff h, eq_interleave_setWidth_iff h]

/-- Settles O7: the one preimage of `v` is made of every other element of `v`. -/
theorem interleaveIsBijective : Obligations.InterleaveIsBijective := by
  refine ⟨fun w hw v => ?_, fun w hw v => ?_, fun w hw v => ?_⟩
  · simp only [@eq_comm _ _ v, eq_interleave_setWidth_iff hw]
    refine ⟨(_, _), ⟨rfl, rfl⟩, ?_⟩
    rintro ⟨a, b⟩ ⟨rfl, rfl⟩
    rfl
  · simp only [@eq_comm _ _ v, eq_interleave64_setWidth_iff hw]
    refine ⟨(_, _), ⟨rfl, rfl⟩, ?_⟩
    rintro ⟨a, b⟩ ⟨rfl, rfl⟩
    rfl
  · simp only [@eq_comm _ _ v, eq_interleave256_setWidth_iff hw]
    refine ⟨((_, _), (_, _)), ⟨⟨rfl, rfl⟩, rfl, rfl⟩, ?_⟩
    rintro ⟨⟨ahi, alo⟩, bhi, blo⟩ ⟨⟨rfl, rfl⟩, rfl, rfl⟩
    rfl

/-! ### Equal sources, quadwords and two zero extensions (R104(a), (b), (d)) -/

theorem interleave_self_elements {w : Nat} (h : w ∈ [8, 16, 32, 64]) (a : BitVec 128) {i : Nat} (hi : i < 64 / w) :
    (interleave w a a).extractLsb' (2 * w * i) w = a.extractLsb' (w * i) w ∧
      (interleave w a a).extractLsb' (2 * w * i + w) w = a.extractLsb' (w * i) w := by
  simpa only [Nat.zero_add] using alternates_interleave h a a i hi

theorem interleave_qwords_low (a b : BitVec 128) : (interleave 64 a b).extractLsb' 0 64 = a.extractLsb' 0 64 :=
  (alternates_interleave (by decide) a b 0 (by decide)).1

theorem interleave_words_bytes_zero (a : BitVec 128) {i : Nat} (hi : i < 4) :
    (interleave 16 (interleave 8 a 0#128) 0#128).extractLsb' (32 * i) 32 = (a.extractLsb' (8 * i) 8).setWidth 32 :=
  calc
    _ = ((interleave 8 a 0#128).extractLsb' (16 * i) 16).setWidth 32 := interleave_zero_pair (by decide) _ hi
    _ = ((a.extractLsb' (8 * i) 8).setWidth 16).setWidth 32 :=
      congrArg (BitVec.setWidth 32) (interleave_zero_pair (w := 8) (by decide) a (by omega))
    _ = (a.extractLsb' (8 * i) 8).setWidth 32 := by rw [BitVec.setWidth_setWidth (by decide)]

/-- Settles O8: each clause is an element, or a pair of elements, of the alternation. -/
theorem interleaveDoublesAndComposes : Obligations.InterleaveDoublesAndComposes :=
  ⟨fun _ hw a _ hi => interleave_self_elements hw a hi, interleave_qwords_low, fun a _ hi => interleave_words_bytes_zero a hi⟩

end Sys2Proof.Proofs.Interleave
end

section
/-! SUPPORT. Proof of the statement of 41_mmx_64bit.md. One lemma says how an MMX form completes with any function that alternates
elements; the three forms differ only in that function. -/

namespace Sys2Proof.Proofs.Mmx

open Sys2Proof Sys2Proof.Machine
open Sys2Proof.Proofs.MachineState Sys2Proof.Proofs.MemoryAccess Sys2Proof.Proofs.Interleave

/-- The operand `mm/m32` is read as `v` exactly when it is a source of value `v`: an `m32` has no alignment of its own, and an
alignment check of 4 (R43, R46, R110). -/
theorem readMmM32_ok_iff {s : State} {len : Nat} {src : RM MmReg} {v : BitVec 32} :
    readMmM32 s len src = .ok v ↔ MmSource s len src v := by
  cases src with
  | reg r => exact ⟨fun h => (Except.ok.inj h).symm, fun h => congrArg Except.ok h.symm⟩
  | mem m =>
    refine loadOperand_ok.trans (exists_congr fun la => ?_)
    have hcheck : checkRead s.access s.env (effAddr s len m).1 (effAddr s len m).2 4 1 4 = .ok la ↔
        Reachable s len m 4 la ∧ (s.env.acEnabled = true → la.toNat % 4 = 0) := by
      rw [checkRead_ok_iff]
      simp [and_assoc]
    rw [hcheck, and_assoc]

/-- `ExecMMX` with a function that alternates elements (R110): a ready form with a source of value `v` completes. -/
theorem execMmx_completes {f : BitVec 64 → BitVec 32 → BitVec 64} {w count : Nat} {p : RexPfx} {d : MmReg} {src : RM MmReg}
    {s : State} {v : BitVec 32} (hf : ∀ a b, Alternates w 0 count (f a b) a b) (hready : MmxReady s.env)
    (hsrc : MmSource s (mmLen p src) src v) :
    ∃ t, execMmx f p d src s = .next t ∧ Alternates w 0 count (t.readMm d) (s.readMm d) v ∧
      t.pc = nextPc s (mmLen p src) ∧ OnlyMm d s t := by
  have hcheck : preChecksMmx s.env = none := formCheck_of_ready (F := .mmx) hready
  refine ⟨_, complete_next.2 ⟨hcheck, v, readMmM32_ok_iff.2 hsrc, rfl⟩, ?_, rfl, onlyMm_writeMm_advance s d _ _⟩
  rw [readMm_advance, readMm_writeMm_same]
  exact hf _ v

/-- Settles O24: the listing of each form alternates elements (R98). -/
theorem mmxFormsComplete : Obligations.MmxFormsComplete := fun _ _ _ _ _ hready hsrc =>
  ⟨execMmx_completes alternates_interleaveBytes64 hready hsrc, execMmx_completes alternates_interleaveWords64 hready hsrc,
    execMmx_completes alternates_interleaveDwords64 hready hsrc⟩

end Sys2Proof.Proofs.Mmx
end

section
/-! SUPPORT. Proof of the statement of 42_sse_128bit.md. The write of a 128-bit legacy form is read back in its two halves, and one
lemma says how such a form completes with any function that alternates elements; the four forms differ only in that function. -/

namespace Sys2Proof.Proofs.Sse

open Sys2Proof Sys2Proof.Machine
open Sys2Proof.Proofs.MachineState Sys2Proof.Proofs.MemoryAccess Sys2Proof.Proofs.Interleave

/-! ### The operand `xmm/m128` (R43, R45, R46) -/

/-- An `m128` is read when its 16 bytes may be read at an address of the alignment given; no alignment check is asked for. -/
theorem readXmmM128_mem_ok_iff {s : State} {len align : Nat} {m : MemOp} {v : BitVec 128} :
    readXmmM128 s len align (.mem m) = .ok v ↔
      ∃ la, Reachable s len m 16 la ∧ (1 < align → la.toNat % align = 0) ∧ v = memRead s.env.mode s.mem la 16 := by
  refine loadOperand_ok.trans (exists_congr fun la => ?_)
  have hcheck : checkRead s.access s.env (effAddr s len m).1 (effAddr s len m).2 16 align 1 = .ok la ↔
      Reachable s len m 16 la ∧ (1 < align → la.toNat % align = 0) := by
    rw [checkRead_ok_iff]
    simp [and_assoc, and_comm]
  rw [hcheck, and_assoc]

/-- With the alignment of 16 that a legacy form requires, the operand is read as `v` exactly when it is a source of value `v`. -/
theorem readXmmM128_ok_iff_sseSource {s : State} {len : Nat} {src : RM VReg} {v : BitVec 128} :
    readXmmM128 s len 16 src = .ok v ↔ SseSource s len src v := by
  cases src with
  | reg r => exact ⟨fun h => (Except.ok.inj h).symm, fun h => congrArg Except.ok h.symm⟩
  | mem m => simp [readXmmM128_mem_ok_iff, SseSource]

/-! ### The write that keeps the upper half (R21, R120) -/

theorem readXmm_writeXmmKeepUpper_same {s : State} {d : VReg} (v : BitVec 128) (hd : s.hasYmm d = true) :
    (s.writeXmmKeepUpper d v).readXmm d = v := by
  rw [State.readXmm, State.writeXmmKeepUpper, readYmm_writeYmm_same _ hd, joinLanes_lane_lo]

theorem readYmm_upper_writeXmmKeepUpper_same {s : State} {d : VReg} (v : BitVec 128) (hd : s.hasYmm d = true) :
    ((s.writeXmmKeepUpper d v).readYmm d).extractLsb' 128 128 = (s.readYmm d).extractLsb' 128 128 := by
  rw [State.writeXmmKeepUpper, readYmm_writeYmm_same _ hd, joinLanes_lane_hi]

/-! ### The forms (R120 to R124) -/

/-- `ExecSSE` with a function that alternates elements (R120): a ready form with a destination that the state has and a source of
value `v` completes. -/
theorem execSse_completes {f : BitVec 128 → BitVec 128 → BitVec 128} {w count : Nat} {p : RexPfx} {d : VReg} {src : RM VReg}
    {s : State} {v : BitVec 128} (hf : ∀ a b, Alternates w 0 count (f a b) a b) (hready : SseReady s.env)
    (hd : s.hasYmm d = true) (hsrc : SseSource s (xmmLen p src) src v) :
    ∃ t, execSse f p d src s = .next t ∧ Alternates w 0 count (t.readXmm d) (s.readXmm d) v ∧
      (t.readYmm d).extractLsb' 128 128 = (s.readYmm d).extractLsb' 128 128 ∧
      t.pc = nextPc s (xmmLen p src) ∧ OnlyYmm d s t := by
  have hcheck : preChecksSse s.env = none := formCheck_of_ready (F := .sse) hready
  refine ⟨_, complete_next.2 ⟨hcheck, v, readXmmM128_ok_iff_sseSource.2 hsrc, rfl⟩, ?_,
    readYmm_upper_writeXmmKeepUpper_same _ hd, rfl, onlyYmm_writeYmm_advance s d _ _⟩
  rw [readXmm_advance, readXmm_writeXmmKeepUpper_same _ hd]
  exact hf _ v

/-- Settles O25: the function of each form alternates elements (R90, R92, R94, R96), and the destination is among the registers
that the mode has. -/
theorem legacySseFormsComplete : Obligations.LegacySseFormsComplete := by
  intro p d src s v hready hregs hsrc
  have hd : s.hasYmm d = true := hregs d List.mem_cons_self
  simp only [List.forall_mem_cons]
  exact ⟨execSse_completes alternates_interleaveBytes hready hd hsrc,
    execSse_completes alternates_interleaveWords hready hd hsrc,
    execSse_completes alternates_interleaveDwords hready hd hsrc,
    execSse_completes alternates_interleaveQwords hready hd hsrc, fun _ h => absurd h List.not_mem_nil⟩

end Sys2Proof.Proofs.Sse
end

section
/-! SUPPORT. Proof of the statement of 43_vex_128bit.md. The alignment asked of an `m128` is that of the parameter, the write that
zeroes the upper half is read back in its two halves, and one lemma says how a VEX.128 form completes with any function that
alternates elements; the four forms differ only in that function. -/

namespace Sys2Proof.Proofs.Vex128

open Sys2Proof Sys2Proof.Machine
open Sys2Proof.Proofs.MachineState Sys2Proof.Proofs.MemoryAccess Sys2Proof.Proofs.Interleave Sys2Proof.Proofs.Sse

/-! ### The operand `xmm3/m128` (R43, R46, R130) -/

/-- An address meets the alignment of a VEX.128 form exactly when it is 16-byte aligned if the parameter of R46 asks for that. -/
theorem vexM128Align_met_iff {env : Env} {la : Addr} :
    (1 < vexM128Align env → la.toNat % vexM128Align env = 0) ↔ (env.vexM128AlignmentEnforced = true → la.toNat % 16 = 0) := by
  cases h : env.vexM128AlignmentEnforced with
  | true => simp [vexM128Align, h]
  | false => simp [vexM128Align, h]

/-- With the alignment of a VEX.128 form, the operand is read as `v` exactly when it is a source of value `v`. -/
theorem readXmmM128_ok_iff_vex128Source {s : State} {len : Nat} {src : RM VReg} {v : BitVec 128} :
    readXmmM128 s len (vexM128Align s.env) src = .ok v ↔ Vex128Source s len src v := by
  cases src with
  | reg r => exact ⟨fun h => (Except.ok.inj h).symm, fun h => congrArg Except.ok h.symm⟩
  | mem m => simp only [readXmmM128_mem_ok_iff, vexM128Align_met_iff, Vex128Source]

/-! ### The write that zeroes the upper half (R21, R130) -/

theorem readXmm_writeXmmZeroUpper_same {s : State} {d : VReg} (v : BitVec 128) (hd : s.hasYmm d = true) :
    (s.writeXmmZeroUpper d v).readXmm d = v := by
  rw [State.readXmm, State.writeXmmZeroUpper, readYmm_writeYmm_same _ hd, joinLanes_lane_lo]

theorem readYmm_upper_writeXmmZeroUpper_same {s : State} {d : VReg} (v : BitVec 128) (hd : s.hasYmm d = true) :
    ((s.writeXmmZeroUpper d v).readYmm d).extractLsb' 128 128 = 0#128 := by
  rw [State.writeXmmZeroUpper, readYmm_writeYmm_same _ hd, joinLanes_lane_hi]

/-! ### The forms (R130 to R134) -/

/-- `ExecVEX128` with a function that alternates elements (R130): a ready form with a destination that the state has and a second
source of value `v` completes. The sources are read before the write, so any of the three registers may coincide. -/
theorem execVex128_completes {f : BitVec 128 → BitVec 128 → BitVec 128} {w count : Nat} {p : VexPfx} {d s1 : VReg} {src : RM VReg}
    {s : State} {v : BitVec 128} (hf : ∀ a b, Alternates w 0 count (f a b) a b) (hready : FormReady s.env .vex128)
    (hd : s.hasYmm d = true) (hsrc : Vex128Source s (vexLen p src) src v) :
    ∃ t, execVex128 f p d s1 src s = .next t ∧ Alternates w 0 count (t.readXmm d) (s.readXmm s1) v ∧
      (t.readYmm d).extractLsb' 128 128 = 0#128 ∧ t.pc = nextPc s (vexLen p src) ∧ OnlyYmm d s t := by
  have hcheck : preChecksVex s.env s.env.cpuidAVX = none := formCheck_of_ready hready
  refine ⟨_, complete_next.2 ⟨hcheck, v, readXmmM128_ok_iff_vex128Source.2 hsrc, rfl⟩, ?_,
    readYmm_upper_writeXmmZeroUpper_same _ hd, rfl, onlyYmm_writeYmm_advance s d _ _⟩
  rw [readXmm_advance, readXmm_writeXmmZeroUpper_same _ hd]
  exact hf _ v

/-- Settles O26: the function of each form alternates elements (R90, R92, R94, R96), and the destination is among the registers
that the mode has. -/
theorem vex128FormsComplete : Obligations.Vex128FormsComplete := by
  intro p d s1 src s v hvex havx hregs hsrc
  have hready : FormReady s.env .vex128 := ⟨hvex, havx⟩
  have hd : s.hasYmm d = true := hregs d List.mem_cons_self
  simp only [List.forall_mem_cons]
  exact ⟨execVex128_completes alternates_interleaveBytes hready hd hsrc,
    execVex128_completes alternates_interleaveWords hready hd hsrc,
    execVex128_completes alternates_interleaveDwords hready hd hsrc,
    execVex128_completes alternates_interleaveQwords hready hd hsrc, fun _ h => absurd h List.not_mem_nil⟩

end Sys2Proof.Proofs.Vex128
end

section
/-! SUPPORT. Proof of the statement of 44_vex_256bit.md. An `m256` is read at any alignment, and one lemma says how a VEX.256 form
completes with any function that alternates elements in both lanes; the four forms differ only in that function. -/

namespace Sys2Proof.Proofs.Vex256

open Sys2Proof Sys2Proof.Machine
open Sys2Proof.Proofs.MachineState Sys2Proof.Proofs.MemoryAccess Sys2Proof.Proofs.Interleave

/-- The operand `ymm3/m256` is read as `v` exactly when it is a source of value `v`: an `m256` has no alignment of its own, and no
alignment check is asked for (R43, R46, R140). -/
theorem readYmmM256_ok_iff {s : State} {len : Nat} {src : RM VReg} {v : BitVec 256} :
    readYmmM256 s len src = .ok v ↔ Vex256Source s len src v := by
  cases src with
  | reg r => exact ⟨fun h => (Except.ok.inj h).symm, fun h => congrArg Except.ok h.symm⟩
  | mem m =>
    refine loadOperand_ok.trans (exists_congr fun la => ?_)
    have hcheck : checkRead s.access s.env (effAddr s len m).1 (effAddr s len m).2 32 1 1 = .ok la ↔ Reachable s len m 32 la := by
      rw [checkRead_ok_iff]
      simp
    rw [hcheck]

/-- `ExecVEX256` with a function that alternates elements in both lanes (R140): a ready form with a destination that the state has
and a second source of value `v` completes. The sources are read before the write, so any of the three registers may coincide. -/
theorem execVex256_completes {f : BitVec 256 → BitVec 256 → BitVec 256} {w count : Nat} {p : VexPfx} {d s1 : VReg} {src : RM VReg}
    {s : State} {v : BitVec 256} (hf : ∀ a b, ∀ lane ∈ [0, 128], Alternates w lane count (f a b) a b)
    (hready : FormReady s.env .vex256) (hd : s.hasYmm d = true) (hsrc : Vex256Source s (vexLen p src) src v) :
    ∃ t, execVex256 f p d s1 src s = .next t ∧
      (∀ lane ∈ [0, 128], Alternates w lane count (t.readYmm d) (s.readYmm s1) v) ∧
      t.pc = nextPc s (vexLen p src) ∧ OnlyYmm d s t := by
  have hcheck : preChecksVex s.env s.env.cpuidAVX2 = none := formCheck_of_ready hready
  refine ⟨_, complete_next.2 ⟨hcheck, v, readYmmM256_ok_iff.2 hsrc, rfl⟩, ?_, rfl, onlyYmm_writeYmm_advance s d _ _⟩
  rw [readYmm_advance, readYmm_writeYmm_same _ hd]
  exact hf _ v

/-- Settles O27: the function of each form alternates elements within both lanes (R91, R93, R95, R97), and the destination is among
the registers that the mode has. -/
theorem vex256FormsComplete : Obligations.Vex256FormsComplete := by
  intro p d s1 src s v hvex havx2 hregs hsrc
  have hready : FormReady s.env .vex256 := ⟨hvex, havx2⟩
  have hd : s.hasYmm d = true := hregs d List.mem_cons_self
  rw [List.forall_mem_cons, List.forall_mem_cons, List.forall_mem_cons, List.forall_mem_singleton]
  dsimp only
  exact ⟨execVex256_completes alternates_interleaveBytes256 hready hd hsrc,
    execVex256_completes alternates_interleaveWords256 hready hd hsrc,
    execVex256_completes alternates_interleaveDwords256 hready hd hsrc,
    execVex256_completes alternates_interleaveQwords256 hready hd hsrc⟩

end Sys2Proof.Proofs.Vex256
end

section
/-! SUPPORT. Proofs of the statements of 60_exceptions.md. One lemma says when an instruction of any form faults: its family's
pre-check raises, or the pre-check passes and the access check of its memory operand raises. The statements follow from what each of
the two checks can raise. -/

namespace Sys2Proof.Proofs.Exceptions

open Sys2Proof Sys2Proof.Machine
open Sys2Proof.Proofs.MemoryAccess

/-! ### When an instruction faults (R157, R161) -/

/-- An operand that fails to be read is a memory operand that fails to be read: a register always has a value. -/
theorem error_iff_of_mem {ρ α : Type} {read : RM ρ → Except Exc α} {e : Exc} {P : MemOp → Prop} {src : RM ρ}
    (hreg : ∀ r, ∃ v, read (.reg r) = .ok v) (hmem : ∀ m, read (.mem m) = .error e ↔ P m) :
    read src = .error e ↔ ∃ m, RM.memOp src = some m ∧ P m := by
  cases src with
  | reg r =>
    obtain ⟨v, hv⟩ := hreg r
    simp [hv, RM.memOp]
  | mem m => simp [hmem, RM.memOp]

/-- The instruction raises `e`: in the pre-check of its family, or, that passed, in the access check of its memory operand. -/
def Raises (i : Instr) (s : State) (e : Exc) : Prop :=
  formCheck s.env (formOf i) = some e ∨
    (formCheck s.env (formOf i) = none ∧ ∃ m, memOpOf i = some m ∧ operandCheck i s m = .error e)

/-- A meaning with the pre-check of the instruction's family, whose operand fails when the memory operand does, faults with what the
instruction raises. -/
theorem exec_fault_iff_of_operand {α : Type} {i : Instr} {s : State} {f : Fault} {operand : Except Exc α} {write : α → State}
    (hexec : exec i s = complete (formCheck s.env (formOf i)) operand write s)
    (hoperand : ∀ e, operand = .error e ↔ ∃ m, memOpOf i = some m ∧ operandCheck i s m = .error e) :
    exec i s = .fault f ↔ ∃ e, f = .exception e s.pc ∧ Raises i s e := by
  simp only [hexec, complete_fault, hoperand, Raises]

/-- All that a fault of an instruction can be: what the instruction raises, at its own pc. -/
theorem exec_fault_iff {i : Instr} {s : State} {f : Fault} :
    exec i s = .fault f ↔ ∃ e, f = .exception e s.pc ∧ Raises i s e := by
  cases i with
  | punpcklbwMm p d src | punpcklwdMm p d src | punpckldqMm p d src =>
    exact exec_fault_iff_of_operand rfl fun _ => error_iff_of_mem (read := readMmM32 s (mmLen p src))
      (fun _ => ⟨_, rfl⟩) fun _ => loadOperand_error
  | punpcklbwXmm p d src | punpcklwdXmm p d src | punpckldqXmm p d src | punpcklqdqXmm p d src =>
    exact exec_fault_iff_of_operand rfl fun _ => error_iff_of_mem (read := readXmmM128 s (xmmLen p src) 16)
      (fun _ => ⟨_, rfl⟩) fun _ => loadOperand_error
  | vpunpcklbwXmm p d s1 src | vpunpcklwdXmm p d s1 src | vpunpckldqXmm p d s1 src | vpunpcklqdqXmm p d s1 src =>
    exact exec_fault_iff_of_operand rfl fun _ => error_iff_of_mem (read := readXmmM128 s (vexLen p src) (vexM128Align s.env))
      (fun _ => ⟨_, rfl⟩) fun _ => loadOperand_error
  | vpunpcklbwYmm p d s1 src | vpunpcklwdYmm p d s1 src | vpunpckldqYmm p d s1 src | vpunpcklqdqYmm p d s1 src =>
    exact exec_fault_iff_of_operand rfl fun _ => error_iff_of_mem (read := readYmmM256 s (vexLen p src))
      (fun _ => ⟨_, rfl⟩) fun _ => loadOperand_error

theorem exec_fault_exception_iff {i : Instr} {s : State} {e : Exc} {pc : Addr} :
    exec i s = .fault (.exception e pc) ↔ pc = s.pc ∧ Raises i s e := by
  simp only [exec_fault_iff, Fault.exception.injEq]
  exact ⟨fun ⟨_, ⟨he, hpc⟩, h⟩ => ⟨hpc, he ▸ h⟩, fun ⟨hpc, h⟩ => ⟨e, ⟨rfl, hpc⟩, h⟩⟩

theorem exec_fault_of_formCheck {i : Instr} {s : State} {F : Form} {e : Exc} (hF : formOf i = F)
    (h : formCheck s.env F = some e) : exec i s = .fault (.exception e s.pc) :=
  exec_fault_exception_iff.2 ⟨rfl, .inl (hF ▸ h)⟩

/-! ### The pre-checks, branch by branch (R151, R153 to R157) -/

section PreChecks

variable {env : Env} {flag : Bool}

theorem preChecksMmx_ud (h : env.cpuidMMX = false ∨ env.cr0EM = true) : preChecksMmx env = some .ud :=
  if_pos (by simpa using h)

theorem preChecksMmx_nm (hcpuid : env.cpuidMMX = true) (hem : env.cr0EM = false) (hts : env.cr0TS = true) :
    preChecksMmx env = some .nm := by
  simp [preChecksMmx, hcpuid, hem, hts]

theorem preChecksMmx_mf (hcpuid : env.cpuidMMX = true) (hem : env.cr0EM = false) (hts : env.cr0TS = false)
    (hpending : env.x87ExceptionPending = true) : preChecksMmx env = some .mf := by
  simp [preChecksMmx, hcpuid, hem, hts, hpending]

theorem preChecksSse_ud (h : env.cpuidSSE2 = false ∨ env.cr0EM = true ∨ env.cr4OSFXSR = false) :
    preChecksSse env = some .ud :=
  if_pos (by simpa [or_assoc] using h)

theorem preChecksSse_nm (hcpuid : env.cpuidSSE2 = true) (hem : env.cr0EM = false) (hosfxsr : env.cr4OSFXSR = true)
    (hts : env.cr0TS = true) : preChecksSse env = some .nm := by
  simp [preChecksSse, hcpuid, hem, hosfxsr, hts]

/-- The CPUID feature flag of a VEX form stands in a branch of its own, which raises the same exception. -/
theorem preChecksVex_ud
    (h : env.cr4OSXSAVE = false ∨ env.xcr0SSE = false ∨ env.xcr0AVX = false ∨ flag = false) :
    preChecksVex env flag = some .ud := by
  unfold preChecksVex
  split
  next => rfl
  next hcontrol =>
    have hflag : flag = false := by
      simp only [Bool.or_eq_true, Bool.not_eq_true', not_or] at hcontrol
      obtain ⟨⟨hosxsave, hxsse⟩, hxavx⟩ := hcontrol
      exact ((h.resolve_left hosxsave).resolve_left hxsse).resolve_left hxavx
    simp [hflag]

theorem preChecksVex_nm (hosxsave : env.cr4OSXSAVE = true) (hxsse : env.xcr0SSE = true) (hxavx : env.xcr0AVX = true)
    (hflag : flag = true) (hts : env.cr0TS = true) : preChecksVex env flag = some .nm := by
  simp [preChecksVex, hosxsave, hxsse, hxavx, hflag, hts]

end PreChecks

/-- Settles O31: the pre-check of each family raises what the statement says, and it comes before the operand. -/
theorem preChecksRaiseInOrder : Obligations.PreChecksRaiseInOrder := by
  intro i s
  refine ⟨fun hF => ⟨fun hud => ?_, fun hcpuid hem hts => ?_, fun hcpuid hem hts hpending => ?_⟩,
    fun hF => ⟨fun hud => ?_, fun hcpuid hem hosfxsr hts => ?_⟩,
    fun hF => ⟨fun hud => ?_, fun hosxsave hxsse hxavx hcpuid hts => ?_⟩,
    fun hF => ⟨fun hud => ?_, fun hosxsave hxsse hxavx hcpuid hts => ?_⟩⟩
  · exact exec_fault_of_formCheck hF (preChecksMmx_ud hud)
  · exact exec_fault_of_formCheck hF (preChecksMmx_nm hcpuid hem hts)
  · exact exec_fault_of_formCheck hF (preChecksMmx_mf hcpuid hem hts hpending)
  · exact exec_fault_of_formCheck hF (preChecksSse_ud hud)
  · exact exec_fault_of_formCheck hF (preChecksSse_nm hcpuid hem hosfxsr hts)
  · exact exec_fault_of_formCheck hF (preChecksVex_ud hud)
  · exact exec_fault_of_formCheck hF (preChecksVex_nm hosxsave hxsse hxavx hcpuid hts)
  · exact exec_fault_of_formCheck hF (preChecksVex_ud hud)
  · exact exec_fault_of_formCheck hF (preChecksVex_nm hosxsave hxsse hxavx hcpuid hts)

/-! ### What each check can raise (R150, column "raised by") -/

theorem preChecksMmx_some {env : Env} {e : Exc} (h : preChecksMmx env = some e) : e = .ud ∨ e = .nm ∨ e = .mf := by
  unfold preChecksMmx at h
  split_ifs at h
  · exact .inl (Option.some.inj h).symm
  · exact .inr (.inl (Option.some.inj h).symm)
  · exact .inr (.inr (Option.some.inj h).symm)

theorem preChecksSse_some {env : Env} {e : Exc} (h : preChecksSse env = some e) : e = .ud ∨ e = .nm := by
  unfold preChecksSse at h
  split_ifs at h
  · exact .inl (Option.some.inj h).symm
  · exact .inr (Option.some.inj h).symm

theorem preChecksVex_some {env : Env} {flag : Bool} {e : Exc} (h : preChecksVex env flag = some e) : e = .ud ∨ e = .nm := by
  unfold preChecksVex at h
  split_ifs at h
  · exact .inl (Option.some.inj h).symm
  · exact .inl (Option.some.inj h).symm
  · exact .inr (Option.some.inj h).symm

theorem formCheck_some {env : Env} {F : Form} {e : Exc} (h : formCheck env F = some e) :
    e = .ud ∨ e = .nm ∨ (e = .mf ∧ F = .mmx) := by
  cases F with
  | mmx => exact (preChecksMmx_some h).imp_right (.imp_right fun he => ⟨he, rfl⟩)
  | sse => exact (preChecksSse_some h).imp_right .inl
  | vex128 | vex256 => exact (preChecksVex_some h).imp_right .inl

/-- Only the MMX family asks for an alignment check (R46, R160). -/
theorem form_eq_mmx_of_alignCheck {F : Form} (h : 1 < formAlignCheck F) : F = .mmx := by
  cases F with
  | mmx => rfl
  | sse | vex128 | vex256 => exact absurd h (Nat.lt_irrefl 1)

theorem operandCheck_error {i : Instr} {s : State} {m : MemOp} {e : Exc} (h : operandCheck i s m = .error e) :
    e = .ss ∨ e = .gp ∨ (∃ code la, e = .pf code la) ∨ (e = .ac ∧ formOf i = .mmx) := by
  obtain ⟨-, he⟩ | ⟨_, -, ⟨-, -, he⟩ | ⟨code, la, -, he⟩ | ⟨hac, -, -, he⟩⟩ := checkRead_error h
  · cases hseg : (effAddr s (instrLen i) m).1 with
    | ss => exact .inl (by rw [he, hseg, segFault])
    | ds => exact .inr (.inl (by rw [he, hseg, segFault]))
  · exact .inr (.inl he)
  · exact .inr (.inr (.inl ⟨code, la, he⟩))
  · exact .inr (.inr (.inr ⟨he, form_eq_mmx_of_alignCheck hac⟩))

/-- Settles O33: with AVX2 the form is ready, its pre-check passes, and an access check does not raise `#UD`. -/
theorem vexL1IsInvalidExactlyWithoutAvx2 : Obligations.VexL1IsInvalidExactlyWithoutAvx2 := by
  intro i s hF hvex
  constructor
  · intro h
    by_contra havx2
    have hready : FormReady s.env (formOf i) := hF ▸ ⟨hvex, Bool.eq_true_of_not_eq_false havx2⟩
    obtain ⟨-, hcheck | ⟨-, m, -, hoperand⟩⟩ := exec_fault_exception_iff.1 h
    · cases (formCheck_of_ready hready).symm.trans hcheck
    · simpa using operandCheck_error hoperand
  · intro havx2
    exact exec_fault_of_formCheck hF (preChecksVex_ud (.inr (.inr (.inr havx2))))

/-- Settles O39: `#MF` comes from the MMX pre-check; the other four come from the access check, which only a memory form makes. -/
theorem exceptionsComeFromTheirForms : Obligations.ExceptionsComeFromTheirForms := by
  intro i s e pc h
  obtain ⟨-, hcheck | ⟨-, m, hm, hoperand⟩⟩ := exec_fault_exception_iff.1 h
  · obtain rfl | rfl | ⟨rfl, hF⟩ := formCheck_some hcheck
    · simp
    · simp
    · simp [hF]
  · have hmem : memOpOf i ≠ none := hm ▸ Option.some_ne_none m
    have hnotMf : e ≠ .mf := by
      rintro rfl
      simpa using operandCheck_error hoperand
    have hac : e = .ac → formOf i = .mmx := by
      rintro rfl
      simpa using operandCheck_error hoperand
    exact ⟨fun he => absurd he hnotMf, fun he => ⟨hac he, hmem⟩, fun _ => hmem, fun _ _ _ => hmem⟩

/-! ### The record of a fault (R150, R161) -/

/-- A step faults with the `#UD` of the decoder (R74(c)) or with the fault of an instruction; either way at the pc of the state. -/
theorem step_fault {s : State} {f : Fault} (h : step s = .fault f) : ∃ e, f = .exception e s.pc := by
  unfold step at h
  split at h
  next => cases h
  next i _ =>
    obtain ⟨e, hf, -⟩ := exec_fault_iff.1 h
    exact ⟨e, hf⟩
  next =>
    cases h
    exact ⟨.ud, rfl⟩
  next => cases h

/-- Settles O40, by cases on the exception: each record is its row of the table. -/
theorem faultRecordIsOneOfSeven : Obligations.FaultRecordIsOneOfSeven := by
  intro s f h
  obtain ⟨e, rfl⟩ := step_fault h
  cases e with
  | ud => exact .inl ⟨rfl, rfl⟩
  | nm => exact .inr (.inl ⟨rfl, rfl⟩)
  | mf => exact .inr (.inr (.inl ⟨rfl, rfl⟩))
  | ss => exact .inr (.inr (.inr (.inl ⟨rfl, rfl⟩)))
  | gp => exact .inr (.inr (.inr (.inr (.inl ⟨rfl, rfl⟩))))
  | pf code la => exact .inr (.inr (.inr (.inr (.inr (.inl ⟨code, la, rfl, rfl⟩)))))
  | ac => exact .inr (.inr (.inr (.inr (.inr (.inr ⟨rfl, rfl⟩)))))

end Sys2Proof.Proofs.Exceptions
end

section
/-! SUPPORT. Proofs of the statements of 70_reset_and_hazards.md: how far a run can go in its program, that the requirements of a
form are exactly what its pre-check asks, and the state at reset. -/

namespace Sys2Proof.Proofs.ResetAndHazards

open Sys2Proof Sys2Proof.Machine
open Sys2Proof.Proofs.MachineState Sys2Proof.Proofs.MemoryAccess Sys2Proof.Proofs.Exceptions

/-! ### A run moves forward in its program (R73, R184) -/

/-- Nothing is fetched from a program that passes the top of the address space (R182). -/
theorem launchOk_of_fetch_ok {s : State} {x : Decoded} (h : fetch s = .ok x) : launchOk s = true := by
  unfold fetch at h
  split_ifs at h with hpast
  simpa using hpast

/-- pc and the program after a completed instruction, whichever register it wrote. -/
theorem exec_next_pcOffset {i : Instr} {s t : State} (h : exec i s = .next t) :
    pcOffset t = pcOffset (s.advance (instrLen i)) ∧ t.program = s.program := by
  obtain ⟨d, v, rfl, -⟩ | ⟨d, v, rfl, -, -⟩ := exec_next h
  · exact ⟨rfl, rfl⟩
  · exact ⟨rfl, rfl⟩

/-- A step moves pc forward by the length of its instruction, at least 3 bytes, which end within the program; pc does not wrap,
since the program lies below the top of the address space. -/
theorem step_next_pcOffset {s t : State} (h : step s = .next t) :
    pcOffset s + 3 ≤ pcOffset t ∧ pcOffset t ≤ s.program.length ∧ t.program = s.program := by
  obtain ⟨i, hfetch, hexec⟩ := step_next h
  obtain ⟨hpc, hdec⟩ := fetch_ok hfetch
  obtain ⟨hmin, -, hfit⟩ := Encoding.decodedLengthWithinBytes _ _ _ hdec
  rw [List.length_drop] at hfit
  have htop : s.base.toNat + s.program.length ≤ addrTop s.env.mode := of_decide_eq_true (launchOk_of_fetch_ok hfetch)
  obtain ⟨hoff, hprogram⟩ := exec_next_pcOffset hexec
  rw [pcOffset_advance (by omega)] at hoff
  exact ⟨by omega, by omega, hprogram⟩

/-- A run of `k + 1` steps that completes is a completed step and a completed run of `k` steps. -/
theorem run_succ_next {M : Host.Core} {k : Nat} {s t : M.State} (h : M.run (k + 1) s = .next t) :
    ∃ s', M.step s = .next s' ∧ M.run k s' = .next t := by
  unfold Host.Core.run at h
  split at h
  next s' hstep => exact ⟨s', hstep, h⟩
  next => cases h
  next => cases h

theorem run_next_pcOffset {k : Nat} {s t : State} (h : Host.Core.run Sys2Proof.core k s = .next t) :
    pcOffset s + 3 * k ≤ pcOffset t ∧ (0 < k → pcOffset t ≤ s.program.length) := by
  induction k generalizing s with
  | zero =>
    cases h
    exact ⟨Nat.le_refl _, fun hk => absurd hk (Nat.lt_irrefl 0)⟩
  | succ k ih =>
    obtain ⟨s', hstep, hrun⟩ := run_succ_next h
    obtain ⟨hforward, hend, hprogram⟩ := step_next_pcOffset hstep
    obtain ⟨hrest, hrestEnd⟩ := ih hrun
    refine ⟨by omega, fun _ => ?_⟩
    cases k with
    | zero =>
      cases hrun
      exact hend
    | succ k => exact hprogram ▸ hrestEnd k.succ_pos

/-- Settles O48, by induction on the number of steps: each moves pc forward by at least 3 bytes and no further than the end of the
program, which no step changes. -/
theorem runsAreBoundedByTheProgram : Obligations.RunsAreBoundedByTheProgram := by
  intro k s t hrun
  obtain ⟨hforward, hend⟩ := run_next_pcOffset hrun
  exact ⟨hforward, hend, fun hk => (Nat.le_of_add_left_le hforward).trans (hend hk)⟩

/-! ### The requirements of a form are what its pre-check asks (R183) -/

theorem mmxReady_of_preChecks {env : Env} (h : preChecksMmx env = none) : MmxReady env := by
  unfold preChecksMmx at h
  split_ifs at h with hud hts hpending
  simp only [Bool.or_eq_true, Bool.not_eq_true', not_or, Bool.not_eq_false, Bool.not_eq_true] at hud hts hpending
  obtain ⟨hcpuid, hem⟩ := hud
  exact ⟨hcpuid, hem, hts, hpending⟩

theorem sseReady_of_preChecks {env : Env} (h : preChecksSse env = none) : SseReady env := by
  unfold preChecksSse at h
  split_ifs at h with hud hts
  simp only [Bool.or_eq_true, Bool.not_eq_true', not_or, Bool.not_eq_false, Bool.not_eq_true] at hud hts
  obtain ⟨⟨hcpuid, hem⟩, hosfxsr⟩ := hud
  exact ⟨hcpuid, hem, hosfxsr, hts⟩

theorem vexReady_of_preChecks {env : Env} {flag : Bool} (h : preChecksVex env flag = none) : VexReady env ∧ flag = true := by
  unfold preChecksVex at h
  split_ifs at h with hud hflag hts
  simp only [Bool.or_eq_true, Bool.not_eq_true', not_or, Bool.not_eq_false, Bool.not_eq_true] at hud hflag hts
  obtain ⟨⟨hosxsave, hxsse⟩, hxavx⟩ := hud
  exact ⟨⟨hosxsave, hxsse, hxavx, hts⟩, hflag⟩

theorem formReady_iff_formCheck {env : Env} {F : Form} : FormReady env F ↔ formCheck env F = none := by
  refine ⟨formCheck_of_ready, fun h => ?_⟩
  cases F with
  | mmx => exact mmxReady_of_preChecks h
  | sse => exact sseReady_of_preChecks h
  | vex128 | vex256 => exact vexReady_of_preChecks h

/-- What a ready form raises, the access check of its memory operand raises. -/
theorem operandCheck_of_raises {i : Instr} {s : State} {e : Exc} (hready : FormReady s.env (formOf i)) (h : Raises i s e) :
    ∃ m, memOpOf i = some m ∧ operandCheck i s m = .error e := by
  obtain hcheck | ⟨-, hoperand⟩ := h
  · cases (formCheck_of_ready hready).symm.trans hcheck
  · exact hoperand

/-- A ready register form has no check left that could raise. -/
theorem exec_next_of_ready_register {i : Instr} {s : State} (hready : FormReady s.env (formOf i)) (hreg : memOpOf i = none) :
    ∃ t, exec i s = .next t := by
  cases hexec : exec i s with
  | next t => exact ⟨t, rfl⟩
  | fault f =>
    obtain ⟨e, -, hraises⟩ := exec_fault_iff.1 hexec
    obtain ⟨m, hm, -⟩ := operandCheck_of_raises hready hraises
    cases hreg.symm.trans hm
  | refused r => exact absurd hexec (Scope.meaningsNeverRefuse i s r)

/-- Settles O32: the access check raises none of the three exceptions, and a pre-check that does not pass raises nothing else. -/
theorem bootRequirementsSufficeAndAreNeeded : Obligations.BootRequirementsSufficeAndAreNeeded := by
  refine fun i s => ⟨⟨fun hready e pc hfault => ?_, fun hnone => ?_⟩, exec_next_of_ready_register⟩
  · obtain ⟨-, hraises⟩ := exec_fault_exception_iff.1 hfault
    obtain ⟨m, -, hoperand⟩ := operandCheck_of_raises hready hraises
    obtain rfl | rfl | ⟨code, la, rfl⟩ | ⟨rfl, -⟩ := operandCheck_error hoperand
    all_goals simp
  · refine formReady_iff_formCheck.2 (Option.eq_none_iff_forall_ne_some.2 fun e hcheck => ?_)
    obtain ⟨hud, hnm, hmf⟩ := hnone e s.pc (exec_fault_of_formCheck rfl hcheck)
    obtain he | he | ⟨he, -⟩ := formCheck_some hcheck
    · exact hud he
    · exact hnm he
    · exact hmf he

/-! ### The state at reset (R30, R180) -/

/-- Settles O47: no memory cell is listed, the program is empty and pc is at its end, and Mode64 has the sixteen registers. -/
theorem resetMeetsTheInvariant : Obligations.ResetMeetsTheInvariant := by
  have hmode : State.reset.env.mode = .mode64 := rfl
  refine ⟨rfl, rfl, Nat.le_refl 0, fun h => ?_, rfl⟩
  cases hmode.symm.trans h

theorem formReady_reset (F : Form) : FormReady Env.reset F := by
  cases F with
  | mmx | sse => exact ⟨rfl, rfl, rfl, rfl⟩
  | vex128 | vex256 => exact ⟨⟨rfl, rfl, rfl, rfl⟩, rfl⟩

/-- The one region of the memory at reset holds every address of 64 bits. -/
theorem allocated_reset (a : Addr) : allocated State.reset.alloc a.toNat = true :=
  allocated_iff.2 ⟨⟨0, 2 ^ 64⟩, List.mem_singleton_self _, Nat.zero_le _, by simpa using a.isLt⟩

/-- Settles O49, field by field. -/
theorem resetHoldsTheChosenValues : Obligations.ResetHoldsTheChosenValues :=
  ⟨fun r => Vector.getElem_replicate r.isLt,
    fun r => ⟨hasYmm_iff.2 r.isLt, Vector.getElem_replicate r.isLt⟩,
    fun r => Vector.getElem_replicate r.isLt,
    rfl, rfl, rfl, fun _ => rfl, formReady_reset, rfl, rfl, rfl, allocated_reset, rfl, rfl⟩

end Sys2Proof.Proofs.ResetAndHazards
end
